-- ==== Sys2Proof/Word.lean ====
section
/-! DEFINITION. The word types of the block (00_scope.md R11: every value is unsigned; a byte has 8 bits, a register 32). -/

namespace Sys2Proof

/-- A byte, 0 to 255 (R11). -/
abbrev Byte := BitVec 8

/-- A 16-bit value: the CRC register, the frame's length and CRC fields. -/
abbrev Half := BitVec 16

/-- A host register value, an unsigned 32-bit word (R11, `REG_WIDTH` of R9). -/
abbrev Word := BitVec 32

end Sys2Proof
end

