-- ==== Sys2Proof/Syntax.lean ====
section
/-! DEFINITION. Syntax: the fifteen commands of the block (30_encoding.md R72), the actions the host can take
(20_memory.md R52, R53; 30_encoding.md R76, R78) and the assembler's lines (R76, R77). -/

namespace Sys2Proof

/-- The commands, one per row of the opcode map (R72). A command has no operand fields: its operands are the
current ARG registers (R70, R73). -/
inductive Instr where
  | nop
  | crcInit
  | crcByte
  | crcFinal
  | crcBlock
  | varintEnc
  | varintDec
  | bytesEnc
  | bytesDec
  | stringEnc
  | stringDec
  | frameBuild
  | frameParse
  | txSend
  | rxStart
  deriving DecidableEq, Repr

/-- The eleven host-visible registers (10_state.md R20). -/
inductive HostReg where
  | cmd
  | arg0
  | arg1
  | arg2
  | res0
  | res1
  | status
  | crc
  | rxstatus
  | rxlen
  | rxcrc
  deriving DecidableEq, Repr

/-- A host access at a block offset, by width (20_memory.md R53). Accesses the block does not answer are
expressible here and refused where they are performed. -/
inductive HostAccess where
  | rd8 (offset : Nat)
  | rd16 (offset : Nat)
  | rd32 (offset : Nat)
  | wr8 (offset : Nat) (data : Byte)
  | wr16 (offset : Nat) (data : Half)
  | wr32 (offset : Nat) (data : Word)
  deriving DecidableEq, Repr

/-- One action of the host's program, labels resolved to positions: an access, the platform's `reset` line
(R76), or host control flow (R78). -/
inductive HostAction where
  | access (a : HostAccess)
  | reset
  | bz (reg : HostReg) (bit : Nat) (target : Nat)
  | bnz (reg : HostReg) (bit : Nat) (target : Nat)
  | b (target : Nat)
  deriving DecidableEq, Repr

/-- A label's name. Names are numbers here; nothing depends on their spelling (log 16). -/
abbrev Label := Nat

/-- The pseudo-instructions (R77), operands in the order the assembler writes them. -/
inductive Pseudo where
  | nop
  | crcInit
  | crcByte (b : Word)
  | crcFinal
  | crcBlock (src n : Word)
  | varintEnc (v dst : Word)
  | varintDec (src avail : Word)
  | bytesEnc (src n dst : Word)
  | bytesDec (src avail : Word)
  | strEnc (src n dst : Word)
  | strDec (src avail : Word)
  | frameBuild (src n dst : Word)
  | frameParse (src n : Word)
  | txSend (src n : Word)
  | rxStart (dst tmo : Word)
  | rxWait
  deriving DecidableEq, Repr

/-- The assembler's lines (R76, R78). `rd r (some v)` is the spelling `rd REG -> v`. -/
inductive AsmLine where
  | wr (reg : HostReg) (imm : Word)
  | rd (reg : HostReg) (expected : Option Word)
  | wb (addr : Nat) (data : List Byte)
  | rb (addr n : Nat)
  | cmd (opc : Word)
  | pseudo (p : Pseudo)
  | label (l : Label)
  | reset
  | bz (reg : HostReg) (bit : Nat) (l : Label)
  | bnz (reg : HostReg) (bit : Nat) (l : Label)
  | b (l : Label)
  deriving DecidableEq, Repr

/-- The Mode codes of the payload format, in code order 0 to 19 (30_encoding.md R98). Consumer side. -/
inductive Mode where
  | hiz | i2c | spi | uart | oneWire | twoWire | threeWire | dio | infrared | usb
  | bluetooth | wifi | ethernet | jtag | led | i2s | can | subGhz | rfid | rf24
  deriving DecidableEq, Repr

/-- The Message variants a payload carries (30_encoding.md R96). Consumer side: no command of the block reads
them (R103). -/
inductive Message where
  | setMode (mode : Mode)
  | getMode
  | i2cScan
  | i2cWrite (addr : Byte) (data : List Byte)
  | i2cRead (addr length : Byte)
  | i2cReadRegister (addr reg : Byte)
  | i2cWriteRegister (addr reg value : Byte)
  | spiTransfer (data : List Byte)
  | uartWrite (data : List Byte)
  | uartRead (length : Half)
  | uartConfig (baudrate : Word)
  deriving DecidableEq, Repr

/-- The ErrorCode vocabulary the source reserves for a future response (30_encoding.md R99). These are not the
block's result codes. -/
inductive PayloadErrorCode where
  | invalidCommand
  | protocolError
  | busError
  | fileNotFound
  | permissionDenied
  | timeout
  | notConfigured
  | invalidParameter
  deriving DecidableEq, Repr

end Sys2Proof
end

