-- ==== Sys2Proof/Decode.lean ====
section
/-! DEFINITION. Decoding of the CMD word and its encoder (30_encoding.md R70 to R72, R75). -/

namespace Sys2Proof

/-- A row of the opcode map: `OPC` and `mask = 0x000000FF` on the CMD word (R71). -/
structure OpcodeRow where
  pattern : Word
  mask : Word
  instr : Instr
  deriving DecidableEq, Repr

/-- The opcode map (R72), a row per command, in the table's order. -/
def opcodeTable : List OpcodeRow :=
  [ ⟨0x00000000#32, 0x000000FF#32, .nop⟩,
    ⟨0x00000001#32, 0x000000FF#32, .crcInit⟩,
    ⟨0x00000002#32, 0x000000FF#32, .crcByte⟩,
    ⟨0x00000003#32, 0x000000FF#32, .crcFinal⟩,
    ⟨0x00000004#32, 0x000000FF#32, .crcBlock⟩,
    ⟨0x00000010#32, 0x000000FF#32, .varintEnc⟩,
    ⟨0x00000011#32, 0x000000FF#32, .varintDec⟩,
    ⟨0x00000012#32, 0x000000FF#32, .bytesEnc⟩,
    ⟨0x00000013#32, 0x000000FF#32, .bytesDec⟩,
    ⟨0x00000014#32, 0x000000FF#32, .stringEnc⟩,
    ⟨0x00000015#32, 0x000000FF#32, .stringDec⟩,
    ⟨0x00000020#32, 0x000000FF#32, .frameBuild⟩,
    ⟨0x00000021#32, 0x000000FF#32, .frameParse⟩,
    ⟨0x00000030#32, 0x000000FF#32, .txSend⟩,
    ⟨0x00000031#32, 0x000000FF#32, .rxStart⟩ ]

/-- Why a CMD word selects no command. -/
inductive DecodeError where
  /-- The OPC is none of R72's (R75): the issue raises IllegalCommand (44_control.md R214). -/
  | illegalOpc (opc : Byte)
  deriving DecidableEq, Repr

/-- The field OPC, bits 7:0 of the CMD word (10_state.md R22). -/
def opcField (w : Word) : Byte := w.setWidth 8

/-- The first row that matches a word, if any. -/
def findRow (w : Word) : List OpcodeRow → Option Instr
  | [] => none
  | row :: rest => if w &&& row.mask = row.pattern then some row.instr else findRow w rest

/-- The decoder (R71): total on any word, it matches on OPC alone, and an OPC outside the table is rejected by
name (R75). -/
def decode (w : Word) : Except DecodeError Instr :=
  match findRow w opcodeTable with
  | some i => .ok i
  | none => .error (.illegalOpc (opcField w))

/-- OPC of each command, written from R72. -/
def opcode : Instr → Byte
  | .nop => 0x00#8
  | .crcInit => 0x01#8
  | .crcByte => 0x02#8
  | .crcFinal => 0x03#8
  | .crcBlock => 0x04#8
  | .varintEnc => 0x10#8
  | .varintDec => 0x11#8
  | .bytesEnc => 0x12#8
  | .bytesDec => 0x13#8
  | .stringEnc => 0x14#8
  | .stringDec => 0x15#8
  | .frameBuild => 0x20#8
  | .frameParse => 0x21#8
  | .txSend => 0x30#8
  | .rxStart => 0x31#8

/-- The encoder: OPC in bits 7:0 and the ignored bits 31:8 zero (R70; log 17). -/
def encode (i : Instr) : Word := (opcode i).setWidth 32

/-- The instruction the decoder reads from an opcode-table word of `nbits` bits (log 18). The CMD write moves one
whole 32-bit word (20_memory.md R51), so the word's bytes need no order. -/
def decodeTableWord (nbits w : Nat) : Option Instr :=
  match decode (BitVec.ofNat 32 (w % 2 ^ nbits)) with
  | .ok i => some i
  | .error _ => none

end Sys2Proof
end

