-- ==== Sys2Proof/Machine/Bits.lean ====
section
/-! DEFINITION. Bit reversal and byte order (00_scope.md R12, R13, R16; 20_memory.md R50). -/

namespace Sys2Proof.Machine

/-- `rev8(b)`: bit i moved to bit 7 - i (R16). -/
def rev8 (b : Byte) : Byte := b.reverse

/-- `rev16(v)`: bit i moved to bit 15 - i (R16). -/
def rev16 (v : Half) : Half := v.reverse

/-- `le16(v) = [v[7:0], v[15:8]]` (R13, R50). -/
def le16 (v : Half) : List Byte := [v.extractLsb' 0 8, v.extractLsb' 8 8]

/-- `from_le16(b0, b1) = b0 + 256 * b1` (R13). -/
def fromLe16 (b0 b1 : Byte) : Half := b1 ++ b0

end Sys2Proof.Machine
end

