-- ==== Sys2Proof/Config.lean ====
section
/-! DEFINITION. The block's fixed parameters (00_scope.md R9), the parameters the spec leaves OPEN
(92_eei_decisions.md), and the free inputs that no step of the block chooses. -/

namespace Sys2Proof

/-- First byte of a frame (R9). -/
abbrev Config.startMarker : Byte := 0xAA#8
/-- Last byte of a frame (R9). -/
abbrev Config.endMarker : Byte := 0x55#8
/-- The only protocol version (R3, R9). -/
abbrev Config.protoVersion : Byte := 0x01#8
/-- Smallest payload length (R9). -/
abbrev Config.minPayload : Nat := 1
/-- Largest payload length (R9). -/
abbrev Config.maxPayload : Nat := 1024
/-- Bytes of a frame that are not payload (R9). -/
abbrev Config.frameOverhead : Nat := 7
/-- Bytes of the longest frame, the size of RX_BUF (R9, R31). -/
abbrev Config.maxFrame : Nat := 1031
/-- The CRC polynomial (R9). -/
abbrev Config.crcPoly : Half := 0x1021#16
/-- The CRC register's start value (R9). -/
abbrev Config.crcInitValue : Half := 0xFFFF#16
/-- The value XORed into the checksum at the end (R9). -/
abbrev Config.crcXorOut : Half := 0xFFFF#16
/-- Size of DMEM in bytes (R9). -/
abbrev Config.dmemSize : Nat := 4096
/-- Longest varint in bytes (R9). -/
abbrev Config.varintMaxBytes : Nat := 5
/-- Varint values are below 2 to this power (R9). -/
abbrev Config.varintWidth : Nat := 32
/-- Room RX_START demands at its destination (R9). -/
abbrev Config.rxDstSpan : Nat := 1024

/-- OPEN parameter `BLOCK_BASE` (R52, 92_eei_decisions.md D4): where the platform puts the block. No body: no
proof can see the number. Log 14. -/
opaque Config.blockBase : Nat

/-- One draw of the TX channel (43_transport.md R180): every byte taken, or a failure after a prefix. The prefix
length is reduced to `0 <= k < n` where the draw is used (log 5). -/
inductive TxDraw where
  | sent
  | failed (k : Nat)
  deriving DecidableEq, Repr, Inhabited

/-- FREE VALUE: the TX channel's n-th draw when the state lists none (R10, R180). No body: a statement that rests
on it holds for every draw. Log 5. -/
opaque Config.freeTxDraw : Nat → TxDraw

end Sys2Proof
end

