-- ==== Sys2Proof/Machine/State.lean ====
section
/-! DEFINITION. The machine's state (10_state.md), its faults and refusals, and the state after power-on reset
(R37). -/

namespace Sys2Proof.Machine

/-- The result codes a command or a receive can end with (60_exceptions.md R220). No other value is ever written
to STATUS.ERR or RXSTATUS.RX_ERR (log 8). `unknownDiscriminant` and `trailingBytes` are reserved for a consumer and
never written by the block. -/
inductive ResultCode where
  | ok
  | frameTooShort
  | invalidStartByte
  | invalidEndByte
  | unsupportedVersion
  | frameTruncated
  | crcMismatch
  | lengthOutOfRange
  | unknownDiscriminant
  | malformedVarint
  | insufficientPayload
  | trailingBytes
  | invalidUtf8
  | timeout
  | incomplete
  | ioFailure
  | unexpectedByte
  | illegalCommand
  | busy
  | addressRange
  deriving DecidableEq, Repr

/-- RXSTATUS.RX_STATE (10_state.md R28, 43_transport.md R182); the codes 4 to 15 never occur (log 8). -/
inductive RxState where
  | idle
  | waitStart
  | header
  | body
  deriving DecidableEq, Repr

/-- DMEM: the bytes written since power-on with their addresses, addresses strictly rising (log 6). An unlisted
address holds no byte yet. -/
abbrev Memory := List Host.Cell

/-- A value the host has read: a register word, by offset, or a DMEM byte, by address. -/
inductive Observation where
  | reg (offset : Nat) (value : Word)
  | dmem (addr : Nat) (value : Byte)
  deriving DecidableEq, Repr

/-- Who moves next (00_scope.md R8, R17; 43_transport.md R183; 70_reset_and_hazards.md R250). Log 1. -/
inductive Turn where
  | host
  | rxByte
  | rxExpire
  | rxIoFail
  | platformReset
  deriving DecidableEq, Repr

/-- The state: the block's registers and hidden state, the channel, and the free inputs of the environment as
plain data. -/
structure State where
  /-- ARG0 (R23) -/
  arg0 : Word
  /-- ARG1 (R23) -/
  arg1 : Word
  /-- ARG2 (R23) -/
  arg2 : Word
  /-- RES0 (R24) -/
  res0 : Word
  /-- RES1 (R24) -/
  res1 : Word
  /-- STATUS.ERR (R25) -/
  err : ResultCode
  /-- STATUS.FATAL (R25) -/
  fatal : Bool
  /-- STATUS.RX_ARMED (R25) -/
  rxArmed : Bool
  /-- STATUS.RX_DONE (R25) -/
  rxDone : Bool
  /-- CRC.ACC (R26) -/
  acc : Half
  /-- RXSTATUS.RX_ERR (R28) -/
  rxErr : ResultCode
  /-- RXSTATUS.RX_STATE (R28) -/
  rxState : RxState
  /-- RXLEN bits 10:0 (R29) -/
  rxLen : BitVec 11
  /-- RXCRC bits 15:0 (R29) -/
  rxCrc : Half
  /-- DMEM (R30) -/
  dmem : Memory
  /-- RX_BUF, the bytes accepted so far; its length is RXSTATUS.RX_CNT (R28, R31; log 7) -/
  rxBuf : List Byte
  /-- RX_L (R31) -/
  rxL : Half
  /-- RX_DST (R31) -/
  rxDst : Word
  /-- RX_TMO (R31) -/
  rxTmo : Word
  /-- The RX timer: none when not running, else the value it was started with (60_exceptions.md R233; log 9) -/
  rxTimer : Option Word
  /-- RX_IN, channel state (R32) -/
  rxIn : List Byte
  /-- TX_OUT, channel state (R32) -/
  txOut : List Byte
  /-- The TX channel's coming draws (00_scope.md R10; log 5) -/
  txDraws : List TxDraw
  /-- The model's own counter of free draws (log 5) -/
  freeDraws : Nat
  /-- Who moves next, then after it, and so on (log 1) -/
  schedule : List Turn
  /-- The host's program (10_state.md R27; log 2) -/
  hostProgram : List HostAction
  /-- The index of the next host action (R27; log 2) -/
  hostPos : Nat
  /-- What the host has read, newest first (log 2) -/
  observed : List Observation
  deriving DecidableEq, Repr

/-- Why a run stops with a fault. -/
inductive Fault where
  /-- A host DMEM read, or a command that uses the byte's value, met a DMEM byte not written since power-on
  (70_reset_and_hazards.md R251). Safe: hardware would go on with some value. -/
  | unwrittenByte
  deriving DecidableEq, Repr

/-- Why a step does not exist. Every refusal is safe: the model stops where hardware or the environment might go
on. -/
inductive Refusal where
  /-- The instruction has no meaning in this model. No arm of `exec` answers it. -/
  | notModelled (mnemonic : String)
  /-- A host access the block does not answer (20_memory.md R52, R53). Raised by the host's access. -/
  | hostAccess
  /-- An RX event that is not enabled (43_transport.md R184). Raised by the event's turn (log 10). -/
  | eventNotEnabled
  /-- The schedule is empty: no agent takes a step (log 1). -/
  | noTurn
  /-- The host's turn comes and its program has no action at its position (log 2). -/
  | hostDone
  /-- A host branch on a register the host has never read (30_encoding.md R78; log 4). -/
  | branchBeforeRead
  deriving DecidableEq, Repr

/-- The state right after power-on (10_state.md R37, 70_reset_and_hazards.md R252): nothing written in DMEM, the
channel empty (log 12), nothing scheduled and no host program (log 1, log 2). -/
def State.reset : State :=
  { arg0 := 0#32, arg1 := 0#32, arg2 := 0#32, res0 := 0#32, res1 := 0#32,
    err := .ok, fatal := false, rxArmed := false, rxDone := false,
    acc := 0xFFFF#16,
    rxErr := .ok, rxState := .idle, rxLen := 0#11, rxCrc := 0#16,
    dmem := [],
    rxBuf := [], rxL := 0#16, rxDst := 0#32, rxTmo := 0#32, rxTimer := none,
    rxIn := [], txOut := [], txDraws := [], freeDraws := 0,
    schedule := [], hostProgram := [], hostPos := 0, observed := [] }

end Sys2Proof.Machine
end

