-- ==== Sys2Proof/Machine/Flags.lean ====
section
/-! DEFINITION. The numbers of the result codes and receive states, and the words the host reads from the status
registers (10_state.md R25, R26, R28, R29; 60_exceptions.md R220). -/

namespace Sys2Proof.Machine

/-- The numeric value of a result code (60_exceptions.md R220). -/
def ResultCode.code : ResultCode → Byte
  | .ok => 0x00#8
  | .frameTooShort => 0x01#8
  | .invalidStartByte => 0x02#8
  | .invalidEndByte => 0x03#8
  | .unsupportedVersion => 0x04#8
  | .frameTruncated => 0x05#8
  | .crcMismatch => 0x06#8
  | .lengthOutOfRange => 0x07#8
  | .unknownDiscriminant => 0x10#8
  | .malformedVarint => 0x11#8
  | .insufficientPayload => 0x12#8
  | .trailingBytes => 0x13#8
  | .invalidUtf8 => 0x14#8
  | .timeout => 0x20#8
  | .incomplete => 0x21#8
  | .ioFailure => 0x22#8
  | .unexpectedByte => 0x23#8
  | .illegalCommand => 0x30#8
  | .busy => 0x31#8
  | .addressRange => 0x32#8

/-- The code of a receive state in RXSTATUS bits 11:8 (10_state.md R28, 43_transport.md R182). -/
def RxState.code : RxState → BitVec 4
  | .idle => 0#4
  | .waitStart => 1#4
  | .header => 2#4
  | .body => 3#4

/-- RX_CNT: the bytes held in the receive buffer (10_state.md R28, R31; log 7). -/
def State.rxCnt (s : State) : Nat := s.rxBuf.length

/-- STATUS: ERR in bits 7:0, FATAL 8, RX_ARMED 9, RX_DONE 10, the rest 0 (R25). -/
def State.statusWord (s : State) : Word :=
  0#21 ++ BitVec.ofBool s.rxDone ++ BitVec.ofBool s.rxArmed ++ BitVec.ofBool s.fatal ++ s.err.code

/-- CRC: ACC in bits 15:0, the rest 0 (R26). -/
def State.crcWord (s : State) : Word := s.acc.setWidth 32

/-- RXSTATUS: RX_ERR in bits 7:0, RX_STATE 11:8, RX_CNT 26:16, the rest 0 (R28). -/
def State.rxStatusWord (s : State) : Word :=
  0#5 ++ BitVec.ofNat 11 s.rxCnt ++ 0#4 ++ s.rxState.code ++ s.rxErr.code

/-- RXLEN: the payload length in bits 10:0, the rest 0 (R29). -/
def State.rxLenWord (s : State) : Word := s.rxLen.setWidth 32

/-- RXCRC: the checksum field in bits 15:0, the rest 0 (R29). -/
def State.rxCrcWord (s : State) : Word := s.rxCrc.setWidth 32

end Sys2Proof.Machine
end

