-- ==== Sys2Proof/Machine/Operands.lean ====
section
/-! DEFINITION. The operand forms (30_encoding.md R73, R74): a byte, an address, a count, a value and a timeout,
each from an ARG register. No operand is sign-extended, scaled or shifted. -/

namespace Sys2Proof.Machine

/-- The byte operand `b = ARG0[7:0]`; ARG0[31:8] is ignored (R74). -/
def byteOperand (s : State) : Byte := s.arg0.setWidth 8

/-- The source address, the whole ARG0 (R73, R74). -/
def srcOperand (s : State) : Nat := s.arg0.toNat

/-- The byte count `n` or `avail`, the whole ARG1 (R73, R74). -/
def countOperand (s : State) : Nat := s.arg1.toNat

/-- The destination address, the whole ARG2 (R73, R74). -/
def dstOperand (s : State) : Nat := s.arg2.toNat

/-- The value operand of VARINT_ENC, the whole ARG0 (R74). -/
def valueOperand (s : State) : Word := s.arg0

/-- The timeout operand of RX_START, the whole ARG0, not interpreted (R74). -/
def timeoutOperand (s : State) : Word := s.arg0

end Sys2Proof.Machine
end

