-- ==== Sys2Proof/Machine/Ops.lean ====
section
/-! DEFINITION. The shared operations: DMEM (00_scope.md R14), the range check (44_control.md R213), command
completion and `raise E` (R15, 60_exceptions.md R224), the registers as the host sees them (10_state.md R20 to
R29), the TX channel's draw, the RX timer, the end of a receive (43_transport.md R190) and reset (R250). -/

namespace Sys2Proof.Machine

/-! ## DMEM -/

/-- The byte at an address, if one has been written since power-on (70_reset_and_hazards.md R251). -/
def Memory.read : Memory → Nat → Option Byte
  | [], _ => none
  | (k, v) :: m, a => if k = a then some v else Memory.read m a

/-- Store one byte, keeping the list in rising order of address. -/
def Memory.write : Memory → Nat → Byte → Memory
  | [], a, b => [(a, b)]
  | (k, v) :: m, a, b =>
    if a < k then (a, b) :: (k, v) :: m
    else if a = k then (a, b) :: m
    else (k, v) :: Memory.write m a b

/-- `MemWrite(a, len(bs), bs)`: byte i goes to address a + i (00_scope.md R14). -/
def Memory.writeBytes : Memory → Nat → List Byte → Memory
  | m, _, [] => m
  | m, a, b :: bs => Memory.writeBytes (Memory.write m a b) (a + 1) bs

/-- `MemRead(a, n)`: the bytes as they are, an unwritten one held as none (00_scope.md R14). -/
def Memory.readBytes (m : Memory) : Nat → Nat → List (Option Byte)
  | _, 0 => []
  | a, n + 1 => Memory.read m a :: Memory.readBytes m (a + 1) n

/-- The addresses of the list rise strictly, from `low` on. -/
def Memory.risesFrom : Nat → Memory → Bool
  | _, [] => true
  | low, (k, _) :: m => decide (low ≤ k) && Memory.risesFrom (k + 1) m

/-- The canonical form of DMEM: addresses strictly rising, all below 4096 (10_state.md R30; log 6). -/
def Memory.wf (m : Memory) : Bool :=
  Memory.risesFrom 0 m && m.all (fun c => decide (c.1 < Config.dmemSize))

/-! ## Completion and raising -/

/-- How a command's pseudocode leaves before its end: a raised code (R15), or the model fault of R251. -/
inductive Stop where
  | raise (e : ResultCode)
  | fault (f : Fault)
  deriving DecidableEq, Repr

/-- `raise E`: ends the current command with code E (R15). -/
def raise {α : Type} (e : ResultCode) : Except Stop α := .error (.raise e)

/-- What `raise E` writes: STATUS.ERR and nothing else (R15, 60_exceptions.md R224). This is the block's one way of
taking an error; the host goes on, so there is no return from it (R223, R231). -/
def State.raised (e : ResultCode) (s : State) : State := { s with err := e }

/-- `finish`: the command ends with result code OK (R15). -/
def State.finish (s : State) : State := { s with err := .ok }

/-- The end of a command's step: the state it computed, or the raised code and nothing else changed (R15, R225), or
the model fault. -/
def complete (s : State) : Except Stop State → Host.Outcome State Fault Refusal
  | .ok s' => .next s'
  | .error (.raise e) => .next (s.raised e)
  | .error (.fault f) => .fault f

/-- The issue of a decoded command (44_control.md R210): Busy while a receive is armed (R211), else the command's
own pseudocode. -/
def issue (s : State) (body : Except Stop State) : Host.Outcome State Fault Refusal :=
  if s.rxArmed then .next (s.raised .busy) else complete s body

/-- `if c: raise E`, as the commands' pseudocode writes it. -/
def raiseIf (c : Bool) (e : ResultCode) : Except Stop Unit := if c then raise e else .ok ()

/-- `check_range(a, n)`: exact sum, no wrap-around (44_control.md R213). -/
def checkRange (a n : Nat) : Except Stop Unit := raiseIf (decide (Config.dmemSize < a + n)) .addressRange

/-- The use of a byte: its value, or the fault when nothing has written it (R251). -/
def useByte : Option Byte → Except Stop Byte
  | some b => .ok b
  | none => .error (.fault .unwrittenByte)

/-- The use of byte i of a sequence (R13, R251). Callers index inside the sequence. -/
def useAt (f : List (Option Byte)) (i : Nat) : Except Stop Byte := useByte (f[i]?.getD none)

/-- The use of every byte of a sequence (R251). -/
def useAll : List (Option Byte) → Except Stop (List Byte)
  | [] => .ok []
  | x :: rest => do
    let b ← useByte x
    let bs ← useAll rest
    return b :: bs

/-! ## The registers as the host sees them -/

/-- The offset of each register (10_state.md R20). -/
def regOffset : HostReg → Nat
  | .cmd => 0x000
  | .arg0 => 0x004
  | .arg1 => 0x008
  | .arg2 => 0x00C
  | .res0 => 0x010
  | .res1 => 0x014
  | .status => 0x018
  | .crc => 0x01C
  | .rxstatus => 0x020
  | .rxlen => 0x024
  | .rxcrc => 0x028

/-- The registers, in the table's order (R20). -/
def hostRegs : List HostReg :=
  [.cmd, .arg0, .arg1, .arg2, .res0, .res1, .status, .crc, .rxstatus, .rxlen, .rxcrc]

/-- The register at an offset; none at a reserved offset (R20). -/
def regAt (off : Nat) : Option HostReg := hostRegs.find? (fun r => regOffset r == off)

/-- The word a host read of a register returns (R20 to R29). -/
def State.readReg (s : State) : HostReg → Word
  | .cmd => 0#32
  | .arg0 => s.arg0
  | .arg1 => s.arg1
  | .arg2 => s.arg2
  | .res0 => s.res0
  | .res1 => s.res1
  | .status => s.statusWord
  | .crc => s.crcWord
  | .rxstatus => s.rxStatusWord
  | .rxlen => s.rxLenWord
  | .rxcrc => s.rxCrcWord

/-- The word a host read at a register offset returns: 0 at a reserved offset (R20). -/
def State.readOffset (s : State) (off : Nat) : Word :=
  match regAt off with
  | some r => s.readReg r
  | none => 0#32

/-- A host write to a register other than CMD (R21, R23, R26): ARG0 to ARG2 take the word, CRC its low 16 bits, a
read-only register nothing. A CMD write is a command issue and does not come here. -/
def State.writeReg (s : State) (w : Word) : HostReg → State
  | .cmd => s
  | .arg0 => { s with arg0 := w }
  | .arg1 => { s with arg1 := w }
  | .arg2 => { s with arg2 := w }
  | .res0 => s
  | .res1 => s
  | .status => s
  | .crc => { s with acc := w.setWidth 16 }
  | .rxstatus => s
  | .rxlen => s
  | .rxcrc => s

/-- The host takes note of a value it has read (log 2). -/
def State.observe (o : Observation) (s : State) : State := { s with observed := o :: s.observed }

/-- The word the host read last from an offset, if it has read it (30_encoding.md R78). -/
def lastRead (off : Nat) : List Observation → Option Word
  | [] => none
  | .reg o w :: rest => if o = off then some w else lastRead off rest
  | .dmem _ _ :: rest => lastRead off rest

/-! ## Channel, timer, receive end, reset -/

/-- The TX channel's draw: the next listed one, or a free one (43_transport.md R180; log 5). -/
def State.txDraw (s : State) : TxDraw :=
  match s.txDraws with
  | d :: _ => d
  | [] => Config.freeTxDraw s.freeDraws

/-- The state after the draw is taken (log 5). -/
def State.dropDraw (s : State) : State :=
  match s.txDraws with
  | _ :: ds => { s with txDraws := ds }
  | [] => { s with freeDraws := s.freeDraws + 1 }

/-- Start or restart the RX timer with RX_TMO (60_exceptions.md R233). -/
def State.startTimer (s : State) : State := { s with rxTimer := some s.rxTmo }

/-- `outcome(E)`: ends the receive (43_transport.md R190). STATUS.ERR is not changed. -/
def State.endReceive (e : ResultCode) (s : State) : State :=
  { s with rxErr := e, rxArmed := false, rxDone := true, rxState := .idle, rxBuf := [], rxTimer := none }

/-- The reset input (70_reset_and_hazards.md R250): every register and field at its value of 10_state.md R37; DMEM
(R251), the channel and everything that belongs to the environment stay. -/
def State.assertReset (s : State) : State :=
  { State.reset with
    dmem := s.dmem, rxIn := s.rxIn, txOut := s.txOut, txDraws := s.txDraws, freeDraws := s.freeDraws,
    schedule := s.schedule, hostProgram := s.hostProgram, hostPos := s.hostPos, observed := s.observed }

end Sys2Proof.Machine
end

