-- ==== Sys2Proof/Machine/Control.lean ====
section
/-! DEFINITION. The control command and the illegal opcode (44_control.md R214, R216). -/

namespace Sys2Proof.Machine

/-- NOP (R216): STATUS.ERR <- OK. -/
def execNop (s : State) : Host.Outcome State Fault Refusal := issue s (.ok s.finish)

/-- A CMD write whose OPC is in no row of R72 (R214): IllegalCommand, unless Busy comes first (R215). -/
def issueIllegal (s : State) : Host.Outcome State Fault Refusal := issue s (raise .illegalCommand)

end Sys2Proof.Machine
end

