-- ==== Sys2Proof/Machine/Crc.lean ====
section
/-! DEFINITION. The CRC unit (40_crc.md). -/

namespace Sys2Proof.Machine

/-- One of the eight shifts of R110: bit 15 is tested before the shift, the polynomial XORed after it. -/
def crcShift (r : Half) : Half :=
  if r.getLsbD 15 then (r <<< 1) ^^^ Config.crcPoly else r <<< 1

/-- `crcShift` n times. -/
def crcShifts : Nat → Half → Half
  | 0, r => r
  | n + 1, r => crcShifts n (crcShift r)

/-- `crc_step(r, b)` (R110). -/
def crcStep (r : Half) (b : Byte) : Half :=
  crcShifts 8 (r ^^^ ((rev8 b).setWidth 16 <<< 8))

/-- The running register after the bytes of a sequence (R111). -/
def crcFeed (r : Half) (d : List Byte) : Half := d.foldl crcStep r

/-- `crc_final(r) = rev16(r) xor 0xFFFF` (R112). -/
def crcFinal (r : Half) : Half := rev16 r ^^^ Config.crcXorOut

/-- `checksum(d)` (R111): total on every byte sequence. -/
def checksum (d : List Byte) : Half := crcFinal (crcFeed Config.crcInitValue d)

/-- CRC_INIT (R115): ACC <- 0xFFFF. -/
def execCrcInit (s : State) : Host.Outcome State Fault Refusal :=
  issue s (.ok { s with acc := Config.crcInitValue }.finish)

/-- CRC_BYTE (R116): ACC takes one byte, ARG0[7:0]. -/
def execCrcByte (s : State) : Host.Outcome State Fault Refusal :=
  issue s (.ok { s with acc := crcStep s.acc (byteOperand s) }.finish)

/-- CRC_FINAL (R117): RES0 <- the checksum so far; ACC is not changed. -/
def execCrcFinal (s : State) : Host.Outcome State Fault Refusal :=
  issue s (.ok { s with res0 := (crcFinal s.acc).setWidth 32 }.finish)

/-- CRC_BLOCK (R118): RES0 <- the checksum of a DMEM range; ACC is neither read nor changed (R114). -/
def execCrcBlock (s : State) : Host.Outcome State Fault Refusal :=
  issue s do
    checkRange (srcOperand s) (countOperand s)
    let d ← useAll (s.dmem.readBytes (srcOperand s) (countOperand s))
    return { s with res0 := (checksum d).setWidth 32 }.finish

end Sys2Proof.Machine
end

