-- ==== Sys2Proof/Machine/Frame.lean ====
section
/-! DEFINITION. The framer and the frame parser (42_frame.md, 30_encoding.md R80). -/

namespace Sys2Proof.Machine

/-- `version ‖ length(LE16) ‖ payload`, the checksum range of a frame (R160). -/
def frameBody (p : List Byte) : List Byte :=
  Config.protoVersion :: (le16 (BitVec.ofNat 16 p.length) ++ p)

/-- `frame(p)` (R160). -/
def frame (p : List Byte) : List Byte :=
  Config.startMarker :: (frameBody p ++ le16 (checksum (frameBody p)) ++ [Config.endMarker])

/-- The payload length is outside 1 to 1024 (R161 step 5a, R163). -/
def badLength (L : Nat) : Bool := decide (L < Config.minPayload ∨ Config.maxPayload < L)

/-- `parse(f) = (L, rx)` (R161): the checks in the rule's order, each byte used where the rule names it. -/
def parse (f : List (Option Byte)) : Except Stop (Nat × Half) := do
  let n := f.length
  raiseIf (decide (n < Config.frameOverhead)) .frameTooShort
  let start ← useAt f 0
  raiseIf (start != Config.startMarker) .invalidStartByte
  let last ← useAt f (n - 1)
  raiseIf (last != Config.endMarker) .invalidEndByte
  let version ← useAt f 1
  raiseIf (version != Config.protoVersion) .unsupportedVersion
  let lo ← useAt f 2
  let hi ← useAt f 3
  let L := (fromLe16 lo hi).toNat
  raiseIf (badLength L) .lengthOutOfRange
  raiseIf (decide (n < 4 + L + 3)) .frameTruncated
  let crcLo ← useAt f (4 + L)
  let crcHi ← useAt f (5 + L)
  let body ← useAll ((f.drop 1).take (3 + L))
  raiseIf (checksum body != fromLe16 crcLo crcHi) .crcMismatch
  return (L, fromLe16 crcLo crcHi)

/-- FRAME_BUILD (R163): both ranges, then the length, then the frame; the payload is read before any write
(20_memory.md R59). ACC is not used (40_crc.md R114). -/
def execFrameBuild (s : State) : Host.Outcome State Fault Refusal :=
  issue s do
    checkRange (srcOperand s) (countOperand s)
    checkRange (dstOperand s) (Config.frameOverhead + countOperand s)
    raiseIf (badLength (countOperand s)) .lengthOutOfRange
    let p ← useAll (s.dmem.readBytes (srcOperand s) (countOperand s))
    return { s with
      dmem := s.dmem.writeBytes (dstOperand s) (frame p),
      res0 := (checksum (frameBody p)).setWidth 32,
      res1 := BitVec.ofNat 32 (Config.frameOverhead + countOperand s) }.finish

/-- FRAME_PARSE (R166): RES0 <- the payload length, RES1 <- the CRC field; nothing is copied. -/
def execFrameParse (s : State) : Host.Outcome State Fault Refusal :=
  issue s do
    checkRange (srcOperand s) (countOperand s)
    let (L, rx) ← parse (s.dmem.readBytes (srcOperand s) (countOperand s))
    return { s with res0 := BitVec.ofNat 32 L, res1 := rx.setWidth 32 }.finish

end Sys2Proof.Machine
end

