-- ==== Sys2Proof/Machine/Transport.lean ====
section
/-! DEFINITION. Transmit and the start of a receive (43_transport.md R180, R181). -/

namespace Sys2Proof.Machine

/-- While FATAL is set, TX_SEND and RX_START raise IoFailure before anything else of theirs (44_control.md R212). -/
def channelUsable (s : State) : Except Stop Unit := raiseIf s.fatal .ioFailure

/-- The bytes `d` handed to a channel that takes them all (R180). -/
def State.sent (s : State) (d : List Byte) : State :=
  { s with txOut := s.txOut ++ d, res1 := s.arg1 }.finish

/-- The prefix a failing channel took (R180): it stays on the wire, FATAL is set and IoFailure raised. -/
def State.sendFailed (s : State) (taken : List Byte) : State :=
  { s with txOut := s.txOut ++ taken, fatal := true, err := .ioFailure }

/-- The channel's answer for `n >= 1` bytes `d` (R180): all bytes are used when it takes them all, only the prefix
`d[0:k)`, `k < n`, when it fails (R251; log 5, log 6). -/
def transmit (s : State) (d : List (Option Byte)) : Except Stop State :=
  match s.txDraw with
  | .sent => do
    let bytes ← useAll d
    return s.dropDraw.sent bytes
  | .failed k => do
    let taken ← useAll (d.take (k % d.length))
    return s.dropDraw.sendFailed taken

/-- TX_SEND (R180): no draw is taken for n = 0 (92_eei_decisions.md D32). -/
def execTxSend (s : State) : Host.Outcome State Fault Refusal :=
  issue s do
    channelUsable s
    checkRange (srcOperand s) (countOperand s)
    if countOperand s = 0 then return s.sent []
    else transmit s (s.dmem.readBytes (srcOperand s) (countOperand s))

/-- The receive state machine armed for one frame (R181); RX_ERR, RXLEN and RXCRC keep their values. -/
def State.arm (s : State) : State :=
  { s with
    rxDst := s.arg2, rxTmo := timeoutOperand s, rxBuf := [], rxState := .waitStart,
    rxArmed := true, rxDone := false }.startTimer.finish

/-- RX_START (R181). -/
def execRxStart (s : State) : Host.Outcome State Fault Refusal :=
  issue s do
    channelUsable s
    checkRange (dstOperand s) Config.rxDstSpan
    return s.arm

end Sys2Proof.Machine
end

