-- ==== Sys2Proof/Machine/Utf8.lean ====
section
/-! DEFINITION. Well-formed UTF-8 (30_encoding.md R90, 41_varint.md R132). -/

namespace Sys2Proof.Machine

/-- An inclusive range of byte values, as a cell of R90's table gives it. -/
structure ByteRange where
  lo : Byte
  hi : Byte
  deriving DecidableEq, Repr

/-- The byte lies in the range. -/
def ByteRange.has (r : ByteRange) (b : Byte) : Bool := decide (r.lo.toNat ≤ b.toNat ∧ b.toNat ≤ r.hi.toNat)

/-- A row of R90's table: the range of byte 1 and the ranges of the bytes after it. -/
structure Utf8Row where
  lead : ByteRange
  tail : List ByteRange
  deriving DecidableEq, Repr

/-- The range 0x80 to 0xBF of an ordinary continuation byte. -/
def contRange : ByteRange := ⟨0x80#8, 0xBF#8⟩

/-- R90's table. The row with two lead ranges in one code-point range is the table's own row. -/
def utf8Table : List Utf8Row :=
  [ ⟨⟨0x00#8, 0x7F#8⟩, []⟩,
    ⟨⟨0xC2#8, 0xDF#8⟩, [contRange]⟩,
    ⟨⟨0xE0#8, 0xE0#8⟩, [⟨0xA0#8, 0xBF#8⟩, contRange]⟩,
    ⟨⟨0xE1#8, 0xEC#8⟩, [contRange, contRange]⟩,
    ⟨⟨0xED#8, 0xED#8⟩, [⟨0x80#8, 0x9F#8⟩, contRange]⟩,
    ⟨⟨0xEE#8, 0xEF#8⟩, [contRange, contRange]⟩,
    ⟨⟨0xF0#8, 0xF0#8⟩, [⟨0x90#8, 0xBF#8⟩, contRange, contRange]⟩,
    ⟨⟨0xF1#8, 0xF3#8⟩, [contRange, contRange, contRange]⟩,
    ⟨⟨0xF4#8, 0xF4#8⟩, [⟨0x80#8, 0x8F#8⟩, contRange, contRange]⟩ ]

/-- The row whose byte-1 range holds a byte, if one does; the lead ranges of the table do not overlap. -/
def utf8RowOf (b : Byte) : Option Utf8Row := utf8Table.find? (fun row => row.lead.has b)

/-- Reads the sequence from the left: the first argument holds the ranges the current character still asks for. -/
def utf8Scan : List ByteRange → List Byte → Bool
  | [], [] => true
  | _ :: _, [] => false
  | [], b :: rest =>
    match utf8RowOf b with
    | some row => utf8Scan row.tail rest
    | none => false
  | r :: rs, b :: rest => r.has b && utf8Scan rs rest

/-- `utf8_valid(s)` (41_varint.md R132): true of the empty sequence. -/
def utf8Valid (s : List Byte) : Bool := utf8Scan [] s

end Sys2Proof.Machine
end

