-- ==== Sys2Proof/Machine/Varint.lean ====
section
/-! DEFINITION. The varint unit (41_varint.md). -/

namespace Sys2Proof.Machine

/-- The groups of `encode_uvarint` (R130), at most as many as the first argument says. -/
def uvarintGroups : Nat → Word → List Byte
  | 0, _ => []
  | k + 1, v =>
    if v >>> 7 = 0#32 then [v.setWidth 8 &&& 0x7F#8]
    else (0x80#8 ||| (v.setWidth 8 &&& 0x7F#8)) :: uvarintGroups k (v >>> 7)

/-- `encode_uvarint(v)` (R130). A 32-bit value has at most `VARINT_MAX_BYTES` groups. -/
def encodeUvarint (v : Word) : List Byte := uvarintGroups Config.varintMaxBytes v

/-- The loop of `decode_uvarint` (R133) with `i` bytes taken and `value` summed so far: the end of the buffer is
tested first, then the length limit; a byte is used only when it is reached. -/
def decodeUvarintFrom (value i : Nat) : List (Option Byte) → Except Stop (Nat × Nat)
  | [] => raise .malformedVarint
  | x :: rest =>
    if i = Config.varintMaxBytes then raise .malformedVarint
    else do
      let b ← useByte x
      let value' := value + (b.toNat % 128) * 2 ^ (7 * i)
      if b.getLsbD 7 then decodeUvarintFrom value' (i + 1) rest
      else if 2 ^ Config.varintWidth ≤ value' then raise .malformedVarint
      else return (value', i + 1)

/-- `decode_uvarint(s) = (value, consumed)` (R133). -/
def decodeUvarint (s : List (Option Byte)) : Except Stop (Nat × Nat) := decodeUvarintFrom 0 0 s

/-- `encode_bytes(d) = encode_uvarint(len(d)) ‖ d` (R131, 30_encoding.md R88). -/
def encodeBytes (d : List Byte) : List Byte := encodeUvarint (BitVec.ofNat 32 d.length) ++ d

/-- `decode_bytes(s) = (L, h + L)` (R134); the data bytes are only counted. -/
def decodeBytes (s : List (Option Byte)) : Except Stop (Nat × Nat) := do
  let (L, h) ← decodeUvarint s
  raiseIf (decide (s.length - h < L)) .insufficientPayload
  return (L, h + L)

/-- `decode_string(s)` (R135): the content is examined last, all of it (log 6). -/
def decodeString (s : List (Option Byte)) : Except Stop (Nat × Nat) := do
  let (L, c) ← decodeBytes s
  let d ← useAll ((s.drop (c - L)).take L)
  raiseIf (!utf8Valid d) .invalidUtf8
  return (L, c)

/-- The state after a codec command wrote bytes at its destination and their count in RES1 (R136, R138, R140). -/
def State.deliver (s : State) (bytes : List Byte) : State :=
  { s with dmem := s.dmem.writeBytes (dstOperand s) bytes, res1 := BitVec.ofNat 32 bytes.length }.finish

/-- The state after a decoder command wrote its two results (R137, R139, R141). -/
def State.report (s : State) (r0 r1 : Nat) : State :=
  { s with res0 := BitVec.ofNat 32 r0, res1 := BitVec.ofNat 32 r1 }.finish

/-- The ranges BYTES_ENC and STRING_ENC check, source first, and the source bytes, read before any write (R138,
R140; 20_memory.md R59). -/
def sourceForPrefixing (s : State) : Except Stop (List Byte) := do
  checkRange (srcOperand s) (countOperand s)
  checkRange (dstOperand s) ((encodeUvarint s.arg1).length + countOperand s)
  useAll (s.dmem.readBytes (srcOperand s) (countOperand s))

/-- VARINT_ENC (R136). -/
def execVarintEnc (s : State) : Host.Outcome State Fault Refusal :=
  issue s do
    let e := encodeUvarint (valueOperand s)
    checkRange (dstOperand s) e.length
    return s.deliver e

/-- VARINT_DEC (R137). -/
def execVarintDec (s : State) : Host.Outcome State Fault Refusal :=
  issue s do
    checkRange (srcOperand s) (countOperand s)
    let (v, c) ← decodeUvarint (s.dmem.readBytes (srcOperand s) (countOperand s))
    return s.report v c

/-- BYTES_ENC (R138). -/
def execBytesEnc (s : State) : Host.Outcome State Fault Refusal :=
  issue s do
    let d ← sourceForPrefixing s
    return s.deliver (encodeUvarint s.arg1 ++ d)

/-- BYTES_DEC (R139). -/
def execBytesDec (s : State) : Host.Outcome State Fault Refusal :=
  issue s do
    checkRange (srcOperand s) (countOperand s)
    let (L, c) ← decodeBytes (s.dmem.readBytes (srcOperand s) (countOperand s))
    return s.report L c

/-- STRING_ENC (R140): the bytes must be well-formed UTF-8. -/
def execStringEnc (s : State) : Host.Outcome State Fault Refusal :=
  issue s do
    let d ← sourceForPrefixing s
    raiseIf (!utf8Valid d) .invalidUtf8
    return s.deliver (encodeUvarint s.arg1 ++ d)

/-- STRING_DEC (R141). -/
def execStringDec (s : State) : Host.Outcome State Fault Refusal :=
  issue s do
    checkRange (srcOperand s) (countOperand s)
    let (L, c) ← decodeString (s.dmem.readBytes (srcOperand s) (countOperand s))
    return s.report L c

end Sys2Proof.Machine
end

