-- ==== Sys2Proof/Machine/Dispatch.lean ====
section
/-! DEFINITION. One arm per command of 30_encoding.md R72. -/

namespace Sys2Proof.Machine

def exec (i : Instr) (s : State) : Host.Outcome State Fault Refusal :=
  match i with
  | .nop => Sys2Proof.Machine.execNop s
  | .crcInit => Sys2Proof.Machine.execCrcInit s
  | .crcByte => Sys2Proof.Machine.execCrcByte s
  | .crcFinal => Sys2Proof.Machine.execCrcFinal s
  | .crcBlock => Sys2Proof.Machine.execCrcBlock s
  | .varintEnc => Sys2Proof.Machine.execVarintEnc s
  | .varintDec => Sys2Proof.Machine.execVarintDec s
  | .bytesEnc => Sys2Proof.Machine.execBytesEnc s
  | .bytesDec => Sys2Proof.Machine.execBytesDec s
  | .stringEnc => Sys2Proof.Machine.execStringEnc s
  | .stringDec => Sys2Proof.Machine.execStringDec s
  | .frameBuild => Sys2Proof.Machine.execFrameBuild s
  | .frameParse => Sys2Proof.Machine.execFrameParse s
  | .txSend => Sys2Proof.Machine.execTxSend s
  | .rxStart => Sys2Proof.Machine.execRxStart s

end Sys2Proof.Machine
end

