-- ==== Sys2Proof/Machine/Receive.lean ====
section
/-! DEFINITION. The receive state machine and its three events (43_transport.md R182 to R192). -/

namespace Sys2Proof.Machine

/-- The extra effects of an OK outcome (R188): the payload to DMEM, its length and its checksum field. -/
def State.deliverPayload (s : State) (payload : List Byte) (L : Nat) (rx : Half) : State :=
  { s with
    dmem := s.dmem.writeBytes s.rxDst.toNat payload, rxLen := BitVec.ofNat 11 L, rxCrc := rx }

/-- The whole frame is held (R187): the outcome is what `parse` says of it. -/
def finishFrame (s : State) (f : List Byte) : Host.Outcome State Fault Refusal :=
  match parse (f.map some) with
  | .ok (L, rx) => .next ((s.deliverPayload ((f.drop 4).take L) L rx).endReceive .ok)
  | .error (.raise e) => .next (s.endReceive e)
  | .error (.fault x) => .fault x

/-- `RxByte(b)` in WAIT_START (R185); there is no search for a start marker (R192). -/
def rxByteWaitStart (s : State) (b : Byte) : Host.Outcome State Fault Refusal :=
  if b = Config.startMarker then .next { s with rxBuf := [b], rxState := .header }.startTimer
  else .next (s.endReceive .unexpectedByte)

/-- `RxByte(b)` in HEADER (R186): the length is tested as soon as four bytes are held. -/
def rxByteHeader (s : State) (b : Byte) : Host.Outcome State Fault Refusal :=
  let buf := s.rxBuf ++ [b]
  if buf.length = 4 then
    let L := fromLe16 (buf.getD 2 0#8) (buf.getD 3 0#8)
    if badLength L.toNat then .next (s.endReceive .lengthOutOfRange)
    else .next { s with rxBuf := buf, rxL := L, rxState := .body }.startTimer
  else .next { s with rxBuf := buf }

/-- `RxByte(b)` in BODY (R187). -/
def rxByteBody (s : State) (b : Byte) : Host.Outcome State Fault Refusal :=
  let buf := s.rxBuf ++ [b]
  if buf.length = Config.frameOverhead + s.rxL.toNat then finishFrame s buf
  else .next { s with rxBuf := buf }

/-- The machine takes a byte, by its state. In IDLE no receive is armed and no byte is taken (R182, R184; log 13). -/
def takeRxByte (s : State) (b : Byte) : Host.Outcome State Fault Refusal :=
  match s.rxState with
  | .idle => .refused .eventNotEnabled
  | .waitStart => rxByteWaitStart s b
  | .header => rxByteHeader s b
  | .body => rxByteBody s b

/-- The event `RxByte` (R183, R184): enabled while a receive is armed and RX_IN is not empty; the byte leaves
RX_IN. -/
def rxByteEvent (s : State) : Host.Outcome State Fault Refusal :=
  match s.rxArmed, s.rxIn with
  | true, b :: rest => takeRxByte { s with rxIn := rest } b
  | _, _ => .refused .eventNotEnabled

/-- The event `RxExpire` (R184, R191): enabled while a receive is armed, whatever RX_TMO and RX_IN hold. -/
def rxExpireEvent (s : State) : Host.Outcome State Fault Refusal :=
  if s.rxArmed then
    if s.rxState = .waitStart then .next (s.endReceive .timeout) else .next (s.endReceive .incomplete)
  else .refused .eventNotEnabled

/-- The event `RxIoFail` (R184, R189): FATAL is set and the receive ends. -/
def rxIoFailEvent (s : State) : Host.Outcome State Fault Refusal :=
  if s.rxArmed then .next ({ s with fatal := true }.endReceive .ioFailure)
  else .refused .eventNotEnabled

end Sys2Proof.Machine
end

