-- ==== Sys2Proof/WellFormed.lean ====
section
/-! DEFINITION. Well-formedness. A command carries no operand, so every command is well formed; the checks with
content are those on host accesses (20_memory.md R52, R53), host actions and assembler programs (30_encoding.md
R76, R78). -/

namespace Sys2Proof

/-- Every row of R72 is a legal command: no field of the CMD word besides OPC is checked (R70, R75). -/
def Instr.wellFormed : Instr → Bool
  | .nop => true
  | .crcInit => true
  | .crcByte => true
  | .crcFinal => true
  | .crcBlock => true
  | .varintEnc => true
  | .varintDec => true
  | .bytesEnc => true
  | .bytesDec => true
  | .stringEnc => true
  | .stringDec => true
  | .frameBuild => true
  | .frameParse => true
  | .txSend => true
  | .rxStart => true

/-- R53: a register access is 32 bits at a multiple of 4 (R52: below 0x1000), a DMEM access 8 bits in 0x1000 to
0x1FFF, and no other access has a step. -/
def HostAccess.wellFormed : HostAccess → Bool
  | .rd8 off => decide (0x1000 ≤ off ∧ off < 0x2000)
  | .rd16 _ => false
  | .rd32 off => decide (off % 4 = 0 ∧ off < 0x1000)
  | .wr8 off _ => decide (0x1000 ≤ off ∧ off < 0x2000)
  | .wr16 _ _ => false
  | .wr32 off _ => decide (off % 4 = 0 ∧ off < 0x1000)

/-- R78: a branch names one of the 32 bits of a register and a position of the program (its end included). That a
bit number of 32 or more is ill formed is the model's choice (log 21). -/
def HostAction.wellFormed (programLength : Nat) : HostAction → Bool
  | .access a => a.wellFormed
  | .reset => true
  | .bz _ bit target => decide (bit < 32 ∧ target ≤ programLength)
  | .bnz _ bit target => decide (bit < 32 ∧ target ≤ programLength)
  | .b target => decide (target ≤ programLength)

/-- Every action of a host program is well formed. -/
def wellFormedProgram (p : List HostAction) : Bool := p.all (HostAction.wellFormed p.length)

/-- The labels an assembler program defines, in order (R76). -/
def definedLabels : List AsmLine → List Label
  | [] => []
  | .label l :: rest => l :: definedLabels rest
  | _ :: rest => definedLabels rest

/-- No value stands twice in the list. -/
def noRepeats : List Nat → Bool
  | [] => true
  | x :: rest => !rest.elem x && noRepeats rest

/-- A line of the assembler against the labels of its program (R76, R78): DMEM ranges lie in DMEM, a branch
names a bit of a register and a label that is defined. DESIGN CHOICE: the spec calls none of these lines ill formed;
a `wb` or `rb` past DMEM is log 22, a bit number of 32 or more log 21, a label log 16. -/
def AsmLine.wellFormed (labels : List Label) : AsmLine → Bool
  | .wr _ _ => true
  | .rd _ _ => true
  | .wb addr data => decide (addr + data.length ≤ Config.dmemSize)
  | .rb addr n => decide (addr + n ≤ Config.dmemSize)
  | .cmd _ => true
  | .pseudo _ => true
  | .label _ => true
  | .reset => true
  | .bz _ bit l => decide (bit < 32) && labels.elem l
  | .bnz _ bit l => decide (bit < 32) && labels.elem l
  | .b l => labels.elem l

/-- An assembler program: no label is defined twice, every line is well formed (log 16, log 21, log 22). -/
def wellFormedAsm (lines : List AsmLine) : Bool :=
  noRepeats (definedLabels lines) && lines.all (AsmLine.wellFormed (definedLabels lines))

end Sys2Proof
end

