-- ==== Sys2Proof/Machine/Agents.lean ====
section
/-! DEFINITION. What each agent's turn does: the host's accesses (20_memory.md R52, R53; 44_control.md R210, R217),
its control flow (30_encoding.md R78), the RX events and the platform's reset. -/

namespace Sys2Proof.Machine

/-- A host write to CMD issues one command (44_control.md R210). -/
def issueCommand (w : Word) (s : State) : Host.Outcome State Fault Refusal :=
  match decode w with
  | .ok i => exec i s
  | .error _ => issueIllegal s

/-- A 32-bit host write at a register offset (10_state.md R20 to R26): CMD issues, a reserved offset ignores it. -/
def writeOffset (off : Nat) (w : Word) (s : State) : Host.Outcome State Fault Refusal :=
  match regAt off with
  | some .cmd => issueCommand w s
  | some r => .next (s.writeReg w r)
  | none => .next s

/-- A host read of the DMEM byte at `a` (20_memory.md R52): a fault when nothing has written it (R251). -/
def readDmem (a : Nat) (s : State) : Host.Outcome State Fault Refusal :=
  match s.dmem.read a with
  | some b => .next (s.observe (.dmem a b))
  | none => .fault .unwrittenByte

/-- A host access the block answers. -/
def answerAccess (s : State) : HostAccess → Host.Outcome State Fault Refusal
  | .rd8 off => readDmem (off - 0x1000) s
  | .wr8 off b => .next { s with dmem := s.dmem.write (off - 0x1000) b }
  | .rd32 off => .next (s.observe (.reg off (s.readOffset off)))
  | .wr32 off w => writeOffset off w s
  | .rd16 _ => .refused .hostAccess
  | .wr16 _ _ => .refused .hostAccess

/-- A host access: refused unless its width, alignment and offset are R52's and R53's. -/
def hostAccess (a : HostAccess) (s : State) : Host.Outcome State Fault Refusal :=
  if a.wellFormed then answerAccess s a else .refused .hostAccess

/-- A host branch (30_encoding.md R78): by bit `bit` of the value last read from the register (log 3, log 4); a
bit number of 32 or more reads as 0 (log 21). -/
def hostBranch (reg : HostReg) (bit : Nat) (wanted : Bool) (target : Nat) (s : State) :
    Host.Outcome State Fault Refusal :=
  match lastRead (regOffset reg) s.observed with
  | some v => .next (if v.getLsbD bit = wanted then { s with hostPos := target } else s)
  | none => .refused .branchBeforeRead

/-- One action of the host's program; the position already stands behind it. -/
def hostAct (s : State) : HostAction → Host.Outcome State Fault Refusal
  | .access a => hostAccess a s
  | .reset => .next s.assertReset
  | .bz reg bit target => hostBranch reg bit false target s
  | .bnz reg bit target => hostBranch reg bit true target s
  | .b target => .next { s with hostPos := target }

/-- The host's turn: the action at its position, and the position moves on (10_state.md R27). -/
def hostTurn (s : State) : Host.Outcome State Fault Refusal :=
  match s.hostProgram[s.hostPos]? with
  | some act => hostAct { s with hostPos := s.hostPos + 1 } act
  | none => .refused .hostDone

/-- One agent's turn (00_scope.md R8, R17). -/
def takeTurn (t : Turn) (s : State) : Host.Outcome State Fault Refusal :=
  match t with
  | .host => hostTurn s
  | .rxByte => rxByteEvent s
  | .rxExpire => rxExpireEvent s
  | .rxIoFail => rxIoFailEvent s
  | .platformReset => .next s.assertReset

/-- The next step: the turn the environment put first (20_memory.md R57; log 1). -/
def nextTurn (s : State) : Host.Outcome State Fault Refusal :=
  match s.schedule with
  | t :: rest => takeTurn t { s with schedule := rest }
  | [] => .refused .noTurn

/-- The host program with an action at a position; positions before it that do not exist yet are filled with a
register read that is not reached. -/
def placeAction (act : HostAction) : Nat → List HostAction → List HostAction
  | 0, [] => [act]
  | 0, _ :: rest => act :: rest
  | n + 1, [] => .access (.rd32 0) :: placeAction act n []
  | n + 1, a :: rest => a :: placeAction act n rest

end Sys2Proof.Machine
end

