-- ==== Sys2Proof/Machine/Step.lean ====
section
/-! DEFINITION. The step function, and the placing of a command where the next step takes it. -/

namespace Sys2Proof.Machine

/-- One step of the model (00_scope.md R17). -/
def step (s : State) : Host.Outcome State Fault Refusal := nextTurn s

/-- The state whose very next step is the host's CMD write of the table word (log 2, log 18). -/
def State.withFetchWord (s : State) (nbits w : Nat) : State :=
  { s with
    schedule := .host :: s.schedule,
    hostProgram :=
      placeAction (.access (.wr32 (regOffset .cmd) (BitVec.ofNat 32 (w % 2 ^ nbits)))) s.hostPos s.hostProgram }

end Sys2Proof.Machine
end

