-- ==== Sys2Proof/Machine/Message.lean ====
section
/-! DEFINITION. The consumer's Message codec (30_encoding.md R95 to R102, R104). It is outside the block
(00_scope.md R7): no command calls it. It is here so that an exchange can be followed to its typed message. -/

namespace Sys2Proof.Machine

/-- The Mode names by code, 0 to 19 (R98). -/
def modeTable : List Mode :=
  [.hiz, .i2c, .spi, .uart, .oneWire, .twoWire, .threeWire, .dio, .infrared, .usb,
   .bluetooth, .wifi, .ethernet, .jtag, .led, .i2s, .can, .subGhz, .rfid, .rf24]

/-- The Mode code of a name: its place in the table (R98). -/
def modeCode (m : Mode) : Byte := BitVec.ofNat 8 (modeTable.idxOf m)

/-- The Mode of a code, if it is one of 0 to 19 (R98, R102). -/
def modeOf (b : Byte) : Option Mode := modeTable[b.toNat]?

/-- The ErrorCode values (R99). -/
def payloadErrorNumber : PayloadErrorCode → Byte
  | .invalidCommand => 0#8
  | .protocolError => 1#8
  | .busError => 2#8
  | .fileNotFound => 3#8
  | .permissionDenied => 4#8
  | .timeout => 5#8
  | .notConfigured => 6#8
  | .invalidParameter => 7#8

/-- A 32-bit value as its four little-endian bytes (R97). -/
def le32 (v : Word) : List Byte :=
  [v.extractLsb' 0 8, v.extractLsb' 8 8, v.extractLsb' 16 8, v.extractLsb' 24 8]

/-- Payload byte 0 of a variant (R95, R96). -/
def messageDiscriminant : Message → Byte
  | .setMode _ => 0#8
  | .getMode => 1#8
  | .i2cScan => 2#8
  | .i2cWrite _ _ => 3#8
  | .i2cRead _ _ => 4#8
  | .i2cReadRegister _ _ => 5#8
  | .i2cWriteRegister _ _ _ => 6#8
  | .spiTransfer _ => 7#8
  | .uartWrite _ => 8#8
  | .uartRead _ => 9#8
  | .uartConfig _ => 10#8

/-- The fields after the discriminant, in order (R96, R97). -/
def messageFields : Message → List Byte
  | .setMode m => [modeCode m]
  | .getMode => []
  | .i2cScan => []
  | .i2cWrite addr data => addr :: encodeBytes data
  | .i2cRead addr length => [addr, length]
  | .i2cReadRegister addr reg => [addr, reg]
  | .i2cWriteRegister addr reg value => [addr, reg, value]
  | .spiTransfer data => encodeBytes data
  | .uartWrite data => encodeBytes data
  | .uartRead length => le16 length
  | .uartConfig baudrate => le32 baudrate

/-- The payload of a Message (R95, R96). -/
def encodeMessage (m : Message) : List Byte := messageDiscriminant m :: messageFields m

/-- What a consumer's decode fails with (R100, R102). `badMode` is the OPEN code `CONSUMER_MODE_ERROR`. -/
inductive ConsumerError where
  | unknownDiscriminant
  | malformedVarint
  | insufficientPayload
  | trailingBytes
  | badMode
  deriving DecidableEq, Repr

/-- The number of a consumer's error: the codes 60_exceptions.md R220 reserves for it, and the parameter
`CONSUMER_MODE_ERROR` for a Mode byte above 19 (92_eei_decisions.md D33; log 15). -/
def ConsumerError.code (consumerModeError : Byte) : ConsumerError → Byte
  | .unknownDiscriminant => ResultCode.code .unknownDiscriminant
  | .malformedVarint => ResultCode.code .malformedVarint
  | .insufficientPayload => ResultCode.code .insufficientPayload
  | .trailingBytes => ResultCode.code .trailingBytes
  | .badMode => consumerModeError

/-- One byte of the payload (R100). -/
def takeField : List Byte → Except ConsumerError (Byte × List Byte)
  | [] => .error .insufficientPayload
  | b :: rest => .ok (b, rest)

/-- A varint-length-prefixed byte sequence of the payload (R97, R100). -/
def takeData (s : List Byte) : Except ConsumerError (List Byte × List Byte) :=
  match decodeBytes (s.map some) with
  | .ok (L, c) => .ok ((s.drop (c - L)).take L, s.drop c)
  | .error (.raise .malformedVarint) => .error .malformedVarint
  | .error _ => .error .insufficientPayload

/-- The whole payload must be consumed (R100). -/
def endOfPayload (m : Message) : List Byte → Except ConsumerError Message
  | [] => .ok m
  | _ :: _ => .error .trailingBytes

/-- The fields of the variant with discriminant `d` (R96). -/
def decodeFields (d : Byte) (s : List Byte) : Except ConsumerError Message := do
  match d.toNat with
  | 0 =>
    let (b, s) ← takeField s
    match modeOf b with
    | some m => endOfPayload (.setMode m) s
    | none => .error .badMode
  | 1 => endOfPayload .getMode s
  | 2 => endOfPayload .i2cScan s
  | 3 =>
    let (addr, s) ← takeField s
    let (data, s) ← takeData s
    endOfPayload (.i2cWrite addr data) s
  | 4 =>
    let (addr, s) ← takeField s
    let (length, s) ← takeField s
    endOfPayload (.i2cRead addr length) s
  | 5 =>
    let (addr, s) ← takeField s
    let (reg, s) ← takeField s
    endOfPayload (.i2cReadRegister addr reg) s
  | 6 =>
    let (addr, s) ← takeField s
    let (reg, s) ← takeField s
    let (value, s) ← takeField s
    endOfPayload (.i2cWriteRegister addr reg value) s
  | 7 =>
    let (data, s) ← takeData s
    endOfPayload (.spiTransfer data) s
  | 8 =>
    let (data, s) ← takeData s
    endOfPayload (.uartWrite data) s
  | 9 =>
    let (lo, s) ← takeField s
    let (hi, s) ← takeField s
    endOfPayload (.uartRead (fromLe16 lo hi)) s
  | 10 =>
    let (b0, s) ← takeField s
    let (b1, s) ← takeField s
    let (b2, s) ← takeField s
    let (b3, s) ← takeField s
    endOfPayload (.uartConfig (b3 ++ b2 ++ b1 ++ b0)) s
  | _ => .error .unknownDiscriminant

/-- The typed decode of a payload (R100, R104). A payload of no bytes has no discriminant to read (log 15). -/
def decodeMessage : List Byte → Except ConsumerError Message
  | [] => .error .insufficientPayload
  | d :: rest => decodeFields d rest

end Sys2Proof.Machine
end

