-- ==== Sys2Proof/Safety.lean ====
section
/-! DEFINITION. The terms the statements use: what DMEM holds, the wire formats as the encoding tables give them
(30_encoding.md R80 to R90), the order of the parser's checks (42_frame.md R161), and the invariant of a safe run
(10_state.md R28, R31). None of these is called by the machine. -/

namespace Sys2Proof.Machine

/-! ## DMEM -/

/-- DMEM holds the bytes `d` from address `a` on. -/
def holdsBytes (m : Memory) (a : Nat) (d : List Byte) : Prop :=
  ∀ i, i < d.length → m.read (a + i) = d[i]?

/-- `m'` is `m` with the bytes `d` stored from address `a` on: every byte outside reads as before. -/
def storedBytes (m m' : Memory) (a : Nat) (d : List Byte) : Prop :=
  holdsBytes m' a d ∧ ∀ k, (k < a ∨ a + d.length ≤ k) → m'.read k = m.read k

/-- The source range of a command lies in DMEM (44_control.md R213). -/
def srcInRange (s : State) : Prop := srcOperand s + countOperand s ≤ 4096

/-- The bytes `d` fill a command's source range. -/
def sourceIs (s : State) (d : List Byte) : Prop :=
  d.length = countOperand s ∧ holdsBytes s.dmem (srcOperand s) d

/-- The bytes `f` fill a command's source range, and each is the byte DMEM holds there if one has been written. -/
def completesSource (s : State) (f : List Byte) : Prop :=
  f.length = countOperand s ∧
    ∀ i, i < f.length → s.dmem.read (srcOperand s + i) = none ∨ s.dmem.read (srcOperand s + i) = f[i]?

/-! ## The varint (R84 to R87) -/

/-- `vlen(v)` (R86). -/
def vlen (v : Nat) : Nat :=
  if v ≤ 127 then 1
  else if v ≤ 16383 then 2
  else if v ≤ 2097151 then 3
  else if v ≤ 268435455 then 4
  else 5

/-- Byte k of the varint of `v`: group `v[7k+6 : 7k]`, with the continuation flag on every group but the last (R84,
R85). -/
def uvarintByte (v : Word) (k : Nat) : Byte :=
  BitVec.ofNat 8 (v.toNat / 2 ^ (7 * k) % 128 + if k + 1 < vlen v.toNat then 128 else 0)

/-- The varint of `v` (R84, R85). -/
def uvarintBytes (v : Word) : List Byte := (List.range (vlen v.toNat)).map (uvarintByte v)

/-- The value of a varint's bytes: the sum of `d[i][6:0] * 2^(7i)` (R87). -/
def uvarintValue : List Byte → Nat
  | [] => 0
  | b :: rest => b.toNat % 128 + 128 * uvarintValue rest

/-- Bit 7 is set in every byte but the last and clear in the last (R87). -/
def uvarintShape : List Byte → Bool
  | [] => false
  | [b] => !b.getLsbD 7
  | b :: rest => b.getLsbD 7 && uvarintShape rest

/-- A varint the decoder accepts (R87): at most five bytes, value below 2^32. -/
def isUvarint (d : List Byte) : Prop := uvarintShape d = true ∧ d.length ≤ 5 ∧ uvarintValue d < 2 ^ 32

/-- A varint stands at the source of a decoder command, within the bytes it may read. -/
def uvarintAtSource (s : State) (h : List Byte) : Prop :=
  isUvarint h ∧ h.length ≤ countOperand s ∧ holdsBytes s.dmem (srcOperand s) h

/-- No varint stands at the source (41_varint.md R133): the bytes run out or reach the fifth without an end, or
the value does not fit 32 bits. -/
def noUvarintAtSource (s : State) : Prop :=
  ∃ d, holdsBytes s.dmem (srcOperand s) d ∧
    ((d.length = min (countOperand s) 5 ∧ d.all (fun b => b.getLsbD 7) = true) ∨
      (d.length ≤ min (countOperand s) 5 ∧ uvarintShape d = true ∧ 2 ^ 32 ≤ uvarintValue d))

/-! ## UTF-8 (R90) -/

/-- The bytes of one character match a row of R90's table, byte by byte. -/
def matchesUtf8Row (c : List Byte) : Prop :=
  ∃ row ∈ utf8Table, List.Forall₂ (fun r b => ByteRange.has r b = true) (row.lead :: row.tail) c

/-- The sequence splits into the table's byte patterns with nothing left over (R90). -/
def wellFormedUtf8 (s : List Byte) : Prop :=
  ∃ chars : List (List Byte), (∀ c ∈ chars, matchesUtf8Row c) ∧ s = chars.flatten

/-! ## CRC: the right-shifting form (40_crc.md R113) -/

/-- One right shift with 0x8408 (R113). -/
def crcShiftRight (r : Half) : Half := if r.getLsbD 0 then (r >>> 1) ^^^ 0x8408#16 else r >>> 1

/-- One byte of the right-shifting form (R113). -/
def crcStepRight (r : Half) (b : Byte) : Half := Nat.repeat crcShiftRight 8 (r ^^^ b.setWidth 16)

/-- The checksum by the right-shifting form (R113). -/
def checksumRight (d : List Byte) : Half := d.foldl crcStepRight 0xFFFF#16 ^^^ 0xFFFF#16

/-! ## The frame (R80 to R82) and the parser's checks (R161) -/

/-- Low and high byte of a 16-bit count, as numbers (R13, R80). -/
def leBytes (n : Nat) : List Byte := [BitVec.ofNat 8 (n % 256), BitVec.ofNat 8 (n / 256 % 256)]

/-- The frame around a payload, field by field (R80). -/
def frameLayout (p : List Byte) : List Byte :=
  [0xAA#8, 0x01#8] ++ leBytes p.length ++ p
    ++ leBytes (checksum ([0x01#8] ++ leBytes p.length ++ p)).toNat ++ [0x55#8]

/-- Byte i of a sequence as a number; callers index inside it. -/
def byteNat (f : List Byte) (i : Nat) : Nat := (f.getD i 0#8).toNat

/-- The declared payload length of a buffer, bytes 2 and 3 (R80). -/
def declaredLength (f : List Byte) : Nat := byteNat f 2 + 256 * byteNat f 3

/-- The CRC field where the layout puts it, bytes 4 + L and 5 + L (R80, R161). -/
def crcField (f : List Byte) : Nat :=
  byteNat f (4 + declaredLength f) + 256 * byteNat f (5 + declaredLength f)

/-- The checksum over frame bytes 1 to 3 + L (R80). -/
def rangeChecksum (f : List Byte) : Nat := (checksum ((f.drop 1).take (3 + declaredLength f))).toNat

/-- A well-formed frame (R82), clause by clause. -/
def wellFormedFrame (f : List Byte) : Prop :=
  7 ≤ f.length ∧ byteNat f 0 = 0xAA ∧ byteNat f 1 = 1
    ∧ (1 ≤ declaredLength f ∧ declaredLength f ≤ 1024)
    ∧ f.length = 7 + declaredLength f
    ∧ crcField f = rangeChecksum f
    ∧ byteNat f (6 + declaredLength f) = 0x55

/-- The parser's checks in order, each with the code it raises when it does not hold (R161). -/
def parseChecks (f : List Byte) : List (Bool × ResultCode) :=
  [ (decide (7 ≤ f.length), .frameTooShort),
    (decide (byteNat f 0 = 0xAA), .invalidStartByte),
    (decide (byteNat f (f.length - 1) = 0x55), .invalidEndByte),
    (decide (byteNat f 1 = 1), .unsupportedVersion),
    (decide (1 ≤ declaredLength f ∧ declaredLength f ≤ 1024), .lengthOutOfRange),
    (decide (7 + declaredLength f ≤ f.length), .frameTruncated),
    (decide (rangeChecksum f = crcField f), .crcMismatch) ]

/-- Check number `j` of `parseChecks f`, counted from 0, uses byte `k` of the buffer (R161): the first test and the
test for truncation look only at lengths, the last one at the checksum range and the CRC field. -/
def usedByCheck (f : List Byte) (j k : Nat) : Prop :=
  (j = 1 ∧ k = 0) ∨ (j = 2 ∧ k = f.length - 1) ∨ (j = 3 ∧ k = 1) ∨ (j = 4 ∧ (k = 2 ∨ k = 3))
    ∨ (j = 6 ∧ 1 ≤ k ∧ k < 6 + declaredLength f)

/-- The code of the first check that fails; none when all hold. -/
def firstFailure : List (Bool × ResultCode) → Option ResultCode
  | [] => none
  | (true, _) :: rest => firstFailure rest
  | (false, e) :: _ => some e

/-! ## The invariant of a safe run -/

/-- What RX_BUF and RX_L hold in each receive state (10_state.md R28, R31; 43_transport.md R185 to R187). -/
def bufferFits (s : State) : Prop :=
  match s.rxState with
  | .idle => s.rxBuf = []
  | .waitStart => s.rxBuf = []
  | .header => 1 ≤ s.rxCnt ∧ s.rxCnt ≤ 3 ∧ byteNat s.rxBuf 0 = 0xAA
  | .body =>
    4 ≤ s.rxCnt ∧ s.rxCnt ≤ 6 + s.rxL.toNat ∧ 1 ≤ s.rxL.toNat ∧ s.rxL.toNat ≤ 1024
      ∧ byteNat s.rxBuf 0 = 0xAA ∧ declaredLength s.rxBuf = s.rxL.toNat

/-- The invariant: DMEM in canonical form; a receive is armed exactly when the receive machine is out of IDLE
(R28), with its timer running on RX_TMO (60_exceptions.md R233), room for any payload at RX_DST (43_transport.md
R181) and no fatal channel (44_control.md R212); the buffer fits the receive state; RXLEN is at most 1024 (R29). -/
structure SafeState (s : State) : Prop where
  memory : s.dmem.wf = true
  armed : s.rxArmed = true ↔ s.rxState ≠ .idle
  timer : s.rxTimer = if s.rxArmed then some s.rxTmo else none
  room : s.rxArmed = true → s.rxDst.toNat + 1024 ≤ 4096
  channel : s.rxArmed = true → s.fatal = false
  buffer : bufferFits s
  length : s.rxLen.toNat ≤ 1024

/-- The result codes with their numbers, row by row (60_exceptions.md R220). -/
def resultCodeTable : List (ResultCode × Nat) :=
  [ (.ok, 0x00), (.frameTooShort, 0x01), (.invalidStartByte, 0x02), (.invalidEndByte, 0x03),
    (.unsupportedVersion, 0x04), (.frameTruncated, 0x05), (.crcMismatch, 0x06), (.lengthOutOfRange, 0x07),
    (.unknownDiscriminant, 0x10), (.malformedVarint, 0x11), (.insufficientPayload, 0x12), (.trailingBytes, 0x13),
    (.invalidUtf8, 0x14), (.timeout, 0x20), (.incomplete, 0x21), (.ioFailure, 0x22), (.unexpectedByte, 0x23),
    (.illegalCommand, 0x30), (.busy, 0x31), (.addressRange, 0x32) ]

/-- The receive states with their codes (43_transport.md R182). -/
def rxStateTable : List (RxState × Nat) := [(.idle, 0), (.waitStart, 1), (.header, 2), (.body, 3)]

/-- The codes a command can put in STATUS.ERR: those whose row of 60_exceptions.md R220 names a command. -/
def commandCodes : List ResultCode :=
  [.ok, .frameTooShort, .invalidStartByte, .invalidEndByte, .unsupportedVersion, .frameTruncated, .crcMismatch,
   .lengthOutOfRange, .malformedVarint, .insufficientPayload, .invalidUtf8, .ioFailure, .illegalCommand, .busy,
   .addressRange]

/-- The codes a receive can put in RXSTATUS.RX_ERR (60_exceptions.md R220, 43_transport.md R193). -/
def receiveCodes : List ResultCode :=
  [.ok, .unexpectedByte, .lengthOutOfRange, .invalidEndByte, .unsupportedVersion, .crcMismatch, .timeout,
   .incomplete, .ioFailure]

/-! ## Shapes of statements -/

/-- The command raises code `e`: STATUS.ERR takes it and nothing else changes (00_scope.md R15). -/
def raises (i : Instr) (s : State) (e : ResultCode) : Prop := exec i s = .next { s with err := e }

/-- Every CMD word whose OPC is `opc` decodes to the command, whatever bits 31:8 hold (30_encoding.md R70 to R72). -/
def hasOpcode (i : Instr) (opc : Byte) : Prop := ∀ w : Word, w.setWidth 8 = opc → decode w = .ok i

/-- Busy comes first (44_control.md R211): while a receive is armed the command does nothing but raise it. -/
def busyFirst (i : Instr) : Prop := ∀ s : State, s.rxArmed = true → raises i s .busy

/-- The same outcome with STATUS.FATAL replaced in its next state. -/
def withFatal (b : Bool) : Host.Outcome State Fault Refusal → Host.Outcome State Fault Refusal
  | .next t => .next { t with fatal := b }
  | .fault f => .fault f
  | .refused r => .refused r

/-- The same outcome with ACC replaced in its next state. -/
def withAcc (a : Half) : Host.Outcome State Fault Refusal → Host.Outcome State Fault Refusal
  | .next t => .next { t with acc := a }
  | .fault f => .fault f
  | .refused r => .refused r

/-- The writes of an outcome (43_transport.md R190). -/
def receiveEnded (e : ResultCode) (s : State) : State :=
  { s with rxErr := e, rxArmed := false, rxDone := true, rxState := .idle, rxBuf := [], rxTimer := none }

/-- The host's next action, when the next turn is the host's. -/
def nextHostAction (s : State) : Option HostAction :=
  match s.schedule with
  | .host :: _ => s.hostProgram[s.hostPos]?
  | _ => none

/-- The next step is a reset, by the platform or by the host program's line (30_encoding.md R76). -/
def resetsNext (s : State) : Prop :=
  s.schedule.head? = some .platformReset ∨ nextHostAction s = some .reset

/-- The next step is a host CMD write that issues the command `i`. -/
def issuesNext (i : Instr) (s : State) : Prop :=
  ∃ w, nextHostAction s = some (.access (.wr32 0 w)) ∧ decode w = .ok i

/-- An event of the receive machine (43_transport.md R183). -/
def isRxEvent (t : Turn) : Prop := t = .rxByte ∨ t = .rxExpire ∨ t = .rxIoFail

/-- How many data bytes a Message carries. -/
def messageDataLength : Message → Nat
  | .i2cWrite _ data => data.length
  | .spiTransfer data => data.length
  | .uartWrite data => data.length
  | _ => 0

/-- The OPC values R75 calls illegal. -/
def illegalOpcs (opc : Nat) : Prop :=
  (0x05 ≤ opc ∧ opc ≤ 0x0F) ∨ (0x16 ≤ opc ∧ opc ≤ 0x1F) ∨ (0x22 ≤ opc ∧ opc ≤ 0x2F)
    ∨ (0x32 ≤ opc ∧ opc ≤ 0xFF)

end Sys2Proof.Machine
end

