-- ==== Sys2Proof/Certificates/Slice0/Obligations.lean ====
section
/-! DEFINITION. The statements for the provers. Each docstring names the rule of spec/ it formalises. -/

open Sys2Proof Sys2Proof.Machine

/-! ## Decoding and issue -/

/-- Decode and encode agree: every word whose OPC field is that of the encoded command decodes to it, whatever bits
31:8 hold (30_encoding.md R70, R71). -/
def Obligations.EncodeThenDecode : Prop :=
  ∀ (i : Instr) (w : Word), i.wellFormed = true →
    (w.setWidth 8 = (encode i).setWidth 8 → decode w = .ok i) ∧ decode (encode i) = .ok i

/-- Words written from the opcode map decode to their commands (30_encoding.md R72; V-CTL-10 to V-CTL-12 for the
ignored bits). -/
def Obligations.SampleWordsDecode : Prop :=
  decode 0xFFFFFF00#32 = .ok .nop ∧ decode 0xABCD0101#32 = .ok .crcInit ∧ decode 0x00000102#32 = .ok .crcByte ∧
    decode 0x00000003#32 = .ok .crcFinal ∧ decode 0x00000010#32 = .ok .varintEnc ∧
    decode 0x00000015#32 = .ok .stringDec ∧ decode 0x00000021#32 = .ok .frameParse ∧
    decode 0x00000031#32 = .ok .rxStart

/-- An OPC of R75's illegal ranges raises IllegalCommand and changes nothing else (44_control.md R214). -/
def Obligations.IllegalOpcodesRaise : Prop :=
  ∀ (s : State) (w : Word), illegalOpcs (w.setWidth 8).toNat → s.rxArmed = false →
    hostAct s (.access (.wr32 0x000 w)) = .next { s with err := .illegalCommand }

/-- A step takes the scheduled turn. The host's turn is `hostAct` of the action at its position, whatever the action
is, on the state whose schedule and position have moved on; for a CMD write of a word that decodes to `i` that is
`exec i` (44_control.md R210, 00_scope.md R17; the schedule and the position are the model's, log 1 and log 2). -/
def Obligations.StepRunsTheDecodedCommand : Prop :=
  ∀ (s : State) (rest : List Turn),
    (∀ t : Turn, s.schedule = t :: rest → step s = takeTurn t { s with schedule := rest }) ∧
    (∀ act : HostAction, s.schedule = .host :: rest → s.hostProgram[s.hostPos]? = some act →
      step s = hostAct { s with schedule := rest, hostPos := s.hostPos + 1 } act) ∧
    ∀ (w : Word) (i : Instr), i.wellFormed = true → s.schedule = .host :: rest →
      s.hostProgram[s.hostPos]? = some (.access (.wr32 0x000 w)) → decode w = .ok i →
      step s = exec i { s with schedule := rest, hostPos := s.hostPos + 1 }

/-- While a receive is armed every CMD write raises Busy and does nothing else, an illegal one too, and the host's
other accesses still do what they do when none is armed (44_control.md R211). -/
def Obligations.BusyIsPrecise : Prop :=
  ∀ s : State, s.rxArmed = true →
    (∀ w : Word, hostAct s (.access (.wr32 0x000 w)) = .next { s with err := .busy }) ∧
    ∀ w : Word, hostAct s (.access (.wr32 0x004 w)) = .next { s with arg0 := w } ∧
      hostAct s (.access (.wr32 0x008 w)) = .next { s with arg1 := w } ∧
      hostAct s (.access (.wr32 0x00C w)) = .next { s with arg2 := w } ∧
      hostAct s (.access (.wr32 0x01C w)) = .next { s with acc := w.setWidth 16 } ∧
      (∀ a b, a < 4096 → ∃ m, hostAct s (.access (.wr8 (0x1000 + a) b)) = .next { s with dmem := m } ∧
        storedBytes s.dmem m a [b]) ∧
      (∀ a b, a < 4096 → s.dmem.read a = some b →
        hostAct s (.access (.rd8 (0x1000 + a))) = .next { s with observed := .dmem a b :: s.observed }) ∧
      ∀ off, off % 4 = 0 → off < 0x1000 →
        hostAct s (.access (.rd32 off)) = .next { s with observed := .reg off (s.readOffset off) :: s.observed }

/-- While FATAL is set TX_SEND and RX_START raise IoFailure and touch nothing else; every other command gives the
same outcome whatever FATAL is (44_control.md R212). -/
def Obligations.FatalBlocksOnlyTheChannel : Prop :=
  (∀ (s : State) (i : Instr), i = .txSend ∨ i = .rxStart → s.rxArmed = false → s.fatal = true →
    raises i s .ioFailure) ∧
  ∀ (s : State) (i : Instr) (b : Bool), i ≠ .txSend → i ≠ .rxStart →
    exec i { s with fatal := b } = withFatal b (exec i s)

/-- Every range of a command is checked with an exact sum before any other check of its own, the source before the
destination (44_control.md R213, R215). -/
def Obligations.RangeChecksRaise : Prop :=
  ∀ s : State, s.rxArmed = false →
    (∀ i ∈ [Instr.crcBlock, .varintDec, .bytesEnc, .bytesDec, .stringEnc, .stringDec, .frameBuild, .frameParse],
      4096 < srcOperand s + countOperand s → raises i s .addressRange) ∧
    (s.fatal = false → 4096 < srcOperand s + countOperand s → raises .txSend s .addressRange) ∧
    (4096 < dstOperand s + vlen (valueOperand s).toNat → raises .varintEnc s .addressRange) ∧
    (∀ i ∈ [Instr.bytesEnc, .stringEnc], srcInRange s →
      4096 < dstOperand s + (vlen (countOperand s) + countOperand s) → raises i s .addressRange) ∧
    (srcInRange s → 4096 < dstOperand s + (7 + countOperand s) → raises .frameBuild s .addressRange) ∧
    (s.fatal = false → 3072 < dstOperand s → raises .rxStart s .addressRange)

/-- A command that raises a code has changed STATUS.ERR and nothing else; the one exception is a TX_SEND whose
channel failed, which has set FATAL, appended a proper prefix of its bytes to TX_OUT and used up a draw
(60_exceptions.md R225, R224; the draws are the model's fields, log 5). -/
def Obligations.ErrorsArePrecise : Prop :=
  ∀ (i : Instr) (s t : State), exec i s = .next t → t.err ≠ .ok →
    t = { s with err := t.err } ∨
    (i = .txSend ∧ s.fatal = false ∧ ∃ taken : List Byte, taken.length < countOperand s ∧
      holdsBytes s.dmem (srcOperand s) taken ∧
      t = { s with
        err := .ioFailure, fatal := true, txOut := s.txOut ++ taken, txDraws := t.txDraws,
        freeDraws := t.freeDraws })

/-- No CMD write is refused, and none stops the model on a DMEM that has been written everywhere: every issue ends
in a next state, OK or with a code (44_control.md section 1; 70_reset_and_hazards.md R251's fault is the only
stop). -/
def Obligations.EveryIssueEnds : Prop :=
  ∀ (s : State) (w : Word),
    (∀ r, issueCommand w s ≠ .refused r) ∧
    ((∀ a, a < 4096 → (s.dmem.read a).isSome = true) → ∃ t, issueCommand w s = .next t)

/-- A command that uses a source byte nothing has written stops with the model's fault (70_reset_and_hazards.md
section 1); a failing TX_SEND uses only the bytes the channel took, a varint decoder only the bytes it reaches,
STRING_DEC all of the data, FRAME_PARSE the bytes of each check it comes to (log 6). In the last clause `f` gives the
unwritten bytes any value: whatever they would decide, the use of byte k comes first. -/
def Obligations.UnwrittenSourceFaults : Prop :=
  ∀ (s : State) (k : Nat), s.rxArmed = false → srcInRange s → k < countOperand s →
    s.dmem.read (srcOperand s + k) = none →
    exec .crcBlock s = .fault .unwrittenByte ∧
    (dstOperand s + (vlen (countOperand s) + countOperand s) ≤ 4096 →
      exec .bytesEnc s = .fault .unwrittenByte ∧ exec .stringEnc s = .fault .unwrittenByte) ∧
    (dstOperand s + (7 + countOperand s) ≤ 4096 → countOperand s ≤ 1024 →
      exec .frameBuild s = .fault .unwrittenByte) ∧
    (∀ ds, s.fatal = false → s.txDraws = .sent :: ds → exec .txSend s = .fault .unwrittenByte) ∧
    (∀ ds n, s.fatal = false → s.txDraws = .failed n :: ds → k < n → n < countOperand s →
      exec .txSend s = .fault .unwrittenByte) ∧
    (∀ d, d.length = k → k < 5 → holdsBytes s.dmem (srcOperand s) d → d.all (fun b => b.getLsbD 7) = true →
      exec .varintDec s = .fault .unwrittenByte ∧ exec .bytesDec s = .fault .unwrittenByte ∧
        exec .stringDec s = .fault .unwrittenByte) ∧
    (∀ h, uvarintAtSource s h → uvarintValue h ≤ countOperand s - h.length → h.length ≤ k →
      k < h.length + uvarintValue h → exec .stringDec s = .fault .unwrittenByte) ∧
    ∀ f j, completesSource s f → (∀ c ∈ (parseChecks f).take j, c.1 = true) → usedByCheck f j k →
      exec .frameParse s = .fault .unwrittenByte

/-- NOP sets STATUS.ERR to OK and does nothing else; Busy while a receive is armed (44_control.md R216). -/
def Obligations.NopClearsErr : Prop :=
  hasOpcode .nop 0x00#8 ∧ busyFirst .nop ∧ ∀ s : State, s.rxArmed = false → exec .nop s = .next { s with err := .ok }

/-! ## The CRC unit -/

/-- CRC_INIT: ACC <- 0xFFFF (40_crc.md R115). -/
def Obligations.CrcInitSetsAcc : Prop :=
  hasOpcode .crcInit 0x01#8 ∧ busyFirst .crcInit ∧
  ∀ s : State, s.rxArmed = false → exec .crcInit s = .next { s with acc := 0xFFFF#16, err := .ok }

/-- CRC_BYTE: ACC takes one `crc_step` with ARG0[7:0], and ARG0[31:8] does not matter (40_crc.md R116). -/
def Obligations.CrcByteStepsAcc : Prop :=
  hasOpcode .crcByte 0x02#8 ∧ busyFirst .crcByte ∧
  ∀ (s : State) (b : Byte), s.rxArmed = false → s.arg0.toNat % 256 = b.toNat →
    exec .crcByte s = .next { s with acc := crcStep s.acc b, err := .ok }

/-- CRC_FINAL: RES0 is ACC bit-reversed and inverted, its upper half 0, and ACC stays (40_crc.md R117, R112). -/
def Obligations.CrcFinalReadsChecksum : Prop :=
  hasOpcode .crcFinal 0x03#8 ∧ busyFirst .crcFinal ∧
  ∀ s : State, s.rxArmed = false → ∃ r : Word,
    exec .crcFinal s = .next { s with res0 := r, err := .ok } ∧
    (∀ i, i < 16 → r.getLsbD i = !s.acc.getLsbD (15 - i)) ∧ ∀ i, 16 ≤ i → r.getLsbD i = false

/-- CRC_BLOCK: RES0 is the checksum of the source bytes, AddressRange when they are not in DMEM, and ACC stays
(40_crc.md R118). -/
def Obligations.CrcBlockChecksum : Prop :=
  hasOpcode .crcBlock 0x04#8 ∧ busyFirst .crcBlock ∧
  ∀ s : State, s.rxArmed = false →
    (4096 < srcOperand s + countOperand s → raises .crcBlock s .addressRange) ∧
    ∀ d, srcInRange s → sourceIs s d →
      exec .crcBlock s = .next { s with res0 := (checksum d).setWidth 32, err := .ok }

/-- The checksums inside CRC_BLOCK, FRAME_BUILD, FRAME_PARSE and the receive path neither read nor write ACC
(40_crc.md R114). -/
def Obligations.AccIsolation : Prop :=
  (∀ (s : State) (a : Half), ∀ i ∈ [Instr.crcBlock, .frameBuild, .frameParse],
    exec i { s with acc := a } = withAcc a (exec i s)) ∧
  (∀ (s : State) (a : Half), takeTurn .rxByte { s with acc := a } = withAcc a (takeTurn .rxByte s)) ∧
  ∀ (s t : State), (∃ i ∈ [Instr.crcBlock, .frameBuild, .frameParse], exec i s = .next t) ∨
    takeTurn .rxByte s = .next t → t.acc = s.acc

/-- CRC_INIT, then one CRC_BYTE per word with the word in ARG0, then CRC_FINAL: RES0 is the checksum of the words'
low bytes, ACC the register after the last byte, and every command ends OK (40_crc.md section 3). Before each CRC_BYTE
the host writes ARG0. -/
def Obligations.CrcByteSequence : Prop :=
  ∀ (ws : List Word) (s : State), s.rxArmed = false →
    ∃ s0 s1 s2 : State, exec .crcInit s = .next s0 ∧
      ws.foldl (fun o w => match o with
        | Host.Outcome.next u => exec .crcByte { u with arg0 := w }
        | stop => stop) (.next s0) = .next s1 ∧
      exec .crcFinal s1 = .next s2 ∧
      s2.res0 = (checksum (ws.map fun w => w.setWidth 8)).setWidth 32 ∧
      s2.acc = (ws.map fun w => w.setWidth 8).foldl crcStep 0xFFFF#16 ∧ s2.dmem = s.dmem ∧ s2.err = .ok

/-- The conformance vector: "123456789" has checksum 0x906E (40_crc.md R120). -/
def Obligations.CrcCheckValue : Prop :=
  checksum [0x31#8, 0x32#8, 0x33#8, 0x34#8, 0x35#8, 0x36#8, 0x37#8, 0x38#8, 0x39#8] = 0x906E#16

/-- The checksum equals the right-shifting form with 0x8408, and after every byte the right-shifting register is
the bit reversal of the left-shifting one (40_crc.md R113, from general knowledge). -/
def Obligations.CrcRightShiftForm : Prop :=
  (∀ d : List Byte, checksum d = checksumRight d) ∧
  ∀ d : List Byte, d.foldl crcStepRight 0xFFFF#16 = rev16 (d.foldl crcStep 0xFFFF#16)

/-! ## The varint unit -/

/-- VARINT_ENC: the varint of ARG0, group by group, at ARG2, its length in RES1; every other byte of DMEM and every
other register as before; AddressRange by the actual length (41_varint.md R136, 30_encoding.md R84 to R86). -/
def Obligations.VarintEncWrites : Prop :=
  hasOpcode .varintEnc 0x10#8 ∧ busyFirst .varintEnc ∧
  ∀ s : State, s.rxArmed = false →
    (4096 < dstOperand s + vlen s.arg0.toNat → raises .varintEnc s .addressRange) ∧
    (dstOperand s + vlen s.arg0.toNat ≤ 4096 → ∃ m,
      exec .varintEnc s =
        .next { s with dmem := m, res1 := BitVec.ofNat 32 (vlen s.arg0.toNat), err := .ok } ∧
      storedBytes s.dmem m (dstOperand s) (uvarintBytes s.arg0))

/-- VARINT_DEC: value and byte count of the varint at ARG0 within ARG1 bytes, nothing after it used; AddressRange;
MalformedVarint when no varint stands there (41_varint.md R137, R133). -/
def Obligations.VarintDecReads : Prop :=
  hasOpcode .varintDec 0x11#8 ∧ busyFirst .varintDec ∧
  ∀ s : State, s.rxArmed = false →
    (4096 < srcOperand s + countOperand s → raises .varintDec s .addressRange) ∧
    (srcInRange s → noUvarintAtSource s → raises .varintDec s .malformedVarint) ∧
    ∀ h, srcInRange s → uvarintAtSource s h →
      exec .varintDec s =
        .next { s with
          res0 := BitVec.ofNat 32 (uvarintValue h), res1 := BitVec.ofNat 32 h.length, err := .ok }

/-- Decoding an encoded value gives the value and its length, whatever follows; decoding an encoded byte sequence
gives its length and total, and the data is where they point (41_varint.md section 3). -/
def Obligations.VarintRoundTrip : Prop :=
  (∀ (v : Word) (t : List (Option Byte)),
    decodeUvarint ((encodeUvarint v).map some ++ t) = .ok (v.toNat, vlen v.toNat)) ∧
  ∀ d : List Byte, d.length < 2 ^ 32 →
    decodeBytes ((encodeBytes d).map some) = .ok (d.length, vlen d.length + d.length) ∧
    ((encodeBytes d).drop (vlen d.length)).take d.length = d

/-- BYTES_ENC: length prefix and data at ARG2, the total in RES1; the data is what the source held before, overlap
or not; both ranges checked, the source first (41_varint.md R138). -/
def Obligations.BytesEncWrites : Prop :=
  hasOpcode .bytesEnc 0x12#8 ∧ busyFirst .bytesEnc ∧
  ∀ s : State, s.rxArmed = false →
    (4096 < srcOperand s + countOperand s → raises .bytesEnc s .addressRange) ∧
    (srcInRange s → 4096 < dstOperand s + (vlen (countOperand s) + countOperand s) →
      raises .bytesEnc s .addressRange) ∧
    ∀ d, srcInRange s → dstOperand s + (vlen (countOperand s) + countOperand s) ≤ 4096 → sourceIs s d → ∃ m,
      exec .bytesEnc s =
        .next { s with
          dmem := m, res1 := BitVec.ofNat 32 (vlen (countOperand s) + countOperand s), err := .ok } ∧
      storedBytes s.dmem m (dstOperand s) (uvarintBytes s.arg1 ++ d)

/-- BYTES_DEC: the declared length and the bytes consumed; AddressRange, MalformedVarint, then InsufficientPayload;
the data bytes are not used (41_varint.md R139, R134). -/
def Obligations.BytesDecReads : Prop :=
  hasOpcode .bytesDec 0x13#8 ∧ busyFirst .bytesDec ∧
  ∀ s : State, s.rxArmed = false →
    (4096 < srcOperand s + countOperand s → raises .bytesDec s .addressRange) ∧
    (srcInRange s → noUvarintAtSource s → raises .bytesDec s .malformedVarint) ∧
    ∀ h, srcInRange s → uvarintAtSource s h →
      (countOperand s - h.length < uvarintValue h → raises .bytesDec s .insufficientPayload) ∧
      (uvarintValue h ≤ countOperand s - h.length →
        exec .bytesDec s =
          .next { s with
            res0 := BitVec.ofNat 32 (uvarintValue h), res1 := BitVec.ofNat 32 (h.length + uvarintValue h),
            err := .ok })

/-- STRING_ENC: BYTES_ENC of well-formed UTF-8, InvalidUtf8 and nothing written otherwise (41_varint.md R140). -/
def Obligations.StringEncWrites : Prop :=
  hasOpcode .stringEnc 0x14#8 ∧ busyFirst .stringEnc ∧
  ∀ s : State, s.rxArmed = false →
    (4096 < srcOperand s + countOperand s → raises .stringEnc s .addressRange) ∧
    (srcInRange s → 4096 < dstOperand s + (vlen (countOperand s) + countOperand s) →
      raises .stringEnc s .addressRange) ∧
    ∀ d, srcInRange s → dstOperand s + (vlen (countOperand s) + countOperand s) ≤ 4096 → sourceIs s d →
      (¬ wellFormedUtf8 d → raises .stringEnc s .invalidUtf8) ∧
      (wellFormedUtf8 d → ∃ m,
        exec .stringEnc s =
          .next { s with
            dmem := m, res1 := BitVec.ofNat 32 (vlen (countOperand s) + countOperand s), err := .ok } ∧
        storedBytes s.dmem m (dstOperand s) (uvarintBytes s.arg1 ++ d))

/-- STRING_DEC: BYTES_DEC whose data must be well-formed UTF-8; the errors in the order AddressRange,
MalformedVarint, InsufficientPayload, InvalidUtf8 (41_varint.md R141, R135). -/
def Obligations.StringDecReads : Prop :=
  hasOpcode .stringDec 0x15#8 ∧ busyFirst .stringDec ∧
  ∀ s : State, s.rxArmed = false →
    (4096 < srcOperand s + countOperand s → raises .stringDec s .addressRange) ∧
    (srcInRange s → noUvarintAtSource s → raises .stringDec s .malformedVarint) ∧
    ∀ h, srcInRange s → uvarintAtSource s h →
      (countOperand s - h.length < uvarintValue h → raises .stringDec s .insufficientPayload) ∧
      ∀ d, uvarintValue h ≤ countOperand s - h.length → d.length = uvarintValue h →
        holdsBytes s.dmem (srcOperand s + h.length) d →
        (¬ wellFormedUtf8 d → raises .stringDec s .invalidUtf8) ∧
        (wellFormedUtf8 d →
          exec .stringDec s =
            .next { s with
              res0 := BitVec.ofNat 32 (uvarintValue h), res1 := BitVec.ofNat 32 (h.length + uvarintValue h),
              err := .ok })

/-- The scan accepts exactly the sequences that split into the table's byte patterns, the empty one among them
(41_varint.md R132, 30_encoding.md R90). -/
def Obligations.Utf8ByTable : Prop :=
  (∀ d : List Byte, utf8Valid d = true ↔ wellFormedUtf8 d) ∧ utf8Valid [] = true

/-! ## The framer and the frame parser -/

/-- FRAME_BUILD: the frame of R80, field by field, at ARG2, its CRC field in RES0 and its length in RES1; both
ranges, then the length bound; the payload is what the source held before (42_frame.md R163). -/
def Obligations.FrameBuildWrites : Prop :=
  hasOpcode .frameBuild 0x20#8 ∧ busyFirst .frameBuild ∧
  ∀ s : State, s.rxArmed = false →
    (4096 < srcOperand s + countOperand s → raises .frameBuild s .addressRange) ∧
    (srcInRange s → 4096 < dstOperand s + (7 + countOperand s) → raises .frameBuild s .addressRange) ∧
    (srcInRange s → dstOperand s + (7 + countOperand s) ≤ 4096 →
      countOperand s < 1 ∨ 1024 < countOperand s → raises .frameBuild s .lengthOutOfRange) ∧
    ∀ p, srcInRange s → dstOperand s + (7 + countOperand s) ≤ 4096 →
      1 ≤ countOperand s → countOperand s ≤ 1024 → sourceIs s p → ∃ m,
      exec .frameBuild s =
        .next { s with
          dmem := m, res0 := BitVec.ofNat 32 (crcField (frameLayout p)),
          res1 := BitVec.ofNat 32 (7 + countOperand s), err := .ok } ∧
      storedBytes s.dmem m (dstOperand s) (frameLayout p)

/-- The frames FRAME_BUILD makes are exactly the well-formed frames (42_frame.md R164, 30_encoding.md R82). -/
def Obligations.BuiltFramesAreTheWellFormed : Prop :=
  ∀ f : List Byte, wellFormedFrame f ↔ ∃ p : List Byte, 1 ≤ p.length ∧ p.length ≤ 1024 ∧ f = frame p

/-- FRAME_PARSE: the first of the parser's checks that fails gives the code; when all hold RES0 is the payload
length and RES1 the CRC field (42_frame.md R166, R161). -/
def Obligations.FrameParseVerdict : Prop :=
  hasOpcode .frameParse 0x21#8 ∧ busyFirst .frameParse ∧
  ∀ s : State, s.rxArmed = false →
    (4096 < srcOperand s + countOperand s → raises .frameParse s .addressRange) ∧
    ∀ f, srcInRange s → sourceIs s f →
      (∀ e, firstFailure (parseChecks f) = some e → raises .frameParse s e) ∧
      (firstFailure (parseChecks f) = none →
        exec .frameParse s =
          .next { s with
            res0 := BitVec.ofNat 32 (declaredLength f), res1 := BitVec.ofNat 32 (crcField f), err := .ok })

/-- Parsing a built frame gives the payload's length and its checksum, and the payload is found (42_frame.md
section 2). -/
def Obligations.FrameRoundTrip : Prop :=
  ∀ p : List Byte, 1 ≤ p.length → p.length ≤ 1024 →
    parse ((frame p).map some) = .ok (p.length, checksum ([0x01#8] ++ leBytes p.length ++ p)) ∧
    ((frame p).drop 4).take p.length = p

/-- A buffer longer than one frame is accepted when its last byte is 0x55, bytes 6 + L to N - 2 ignored, even
unwritten; the same frame followed by 0x00 fails InvalidEndByte (42_frame.md R168). -/
def Obligations.LongBuffersAccepted : Prop :=
  ∀ (p : List Byte) (ignored : List (Option Byte)), 1 ≤ p.length → p.length ≤ 1024 →
    parse (((frame p).take (6 + p.length)).map some ++ ignored ++ [some 0x55#8]) =
      .ok (p.length, checksum ([0x01#8] ++ leBytes p.length ++ p)) ∧
    parse ((frame p).map some ++ ignored ++ [some 0x00#8]) = raise .invalidEndByte

/-- Corrupting one byte of a frame other than its two length bytes is detected: in the payload or the CRC field always
with CrcMismatch, in the start, end or version byte with that byte's code (42_frame.md R171, 40_crc.md R121; single
bits are a case). -/
def Obligations.CorruptionIsDetected : Prop :=
  ∀ (p : List Byte) (i : Nat) (b : Byte), 1 ≤ p.length → p.length ≤ 1024 → (frame p)[i]? ≠ some b →
    (4 ≤ i → i < 6 + p.length → parse (((frame p).set i b).map some) = raise .crcMismatch) ∧
    (i = 0 → parse (((frame p).set i b).map some) = raise .invalidStartByte) ∧
    (i = 1 → parse (((frame p).set i b).map some) = raise .unsupportedVersion) ∧
    (i = 6 + p.length → parse (((frame p).set i b).map some) = raise .invalidEndByte)

/-! ## Transmit and receive -/

/-- TX_SEND: a channel that takes all bytes has them appended to TX_OUT and RES1 set; one that fails after k < n
has the prefix appended, FATAL set and IoFailure raised; n = 0 sends nothing, takes no draw and ends OK; with no
draw listed one of the two happens (43_transport.md R180; the draws are the model's fields, log 5). -/
def Obligations.TxSendHandsOver : Prop :=
  hasOpcode .txSend 0x30#8 ∧ busyFirst .txSend ∧
  ∀ s : State, s.rxArmed = false →
    (s.fatal = true → raises .txSend s .ioFailure) ∧
    (s.fatal = false → 4096 < srcOperand s + countOperand s → raises .txSend s .addressRange) ∧
    (s.fatal = false → srcInRange s →
      (countOperand s = 0 → exec .txSend s = .next { s with res1 := 0#32, err := .ok }) ∧
      (∀ d ds, 1 ≤ countOperand s → sourceIs s d → s.txDraws = .sent :: ds →
        exec .txSend s =
          .next { s with txOut := s.txOut ++ d, res1 := s.arg1, txDraws := ds, err := .ok }) ∧
      (∀ k taken ds, k < countOperand s → taken.length = k → holdsBytes s.dmem (srcOperand s) taken →
        s.txDraws = .failed k :: ds →
        exec .txSend s =
          .next { s with txOut := s.txOut ++ taken, fatal := true, txDraws := ds, err := .ioFailure }) ∧
      (∀ d, 1 ≤ countOperand s → sourceIs s d → s.txDraws = [] →
        (exec .txSend s =
          .next { s with txOut := s.txOut ++ d, res1 := s.arg1, freeDraws := s.freeDraws + 1, err := .ok }) ∨
        ∃ k, k < countOperand s ∧ exec .txSend s =
          .next { s with
            txOut := s.txOut ++ d.take k, fatal := true, freeDraws := s.freeDraws + 1, err := .ioFailure }))

/-- RX_START: operands latched, buffer empty, WAIT_START, RX_ARMED set, RX_DONE cleared, the timer running on
RX_TMO; Busy, IoFailure by FATAL, AddressRange above 3072 (43_transport.md R181). -/
def Obligations.RxStartArms : Prop :=
  hasOpcode .rxStart 0x31#8 ∧ busyFirst .rxStart ∧
  ∀ s : State, s.rxArmed = false →
    (s.fatal = true → raises .rxStart s .ioFailure) ∧
    (s.fatal = false → 3072 < s.arg2.toNat → raises .rxStart s .addressRange) ∧
    (s.fatal = false → s.arg2.toNat ≤ 3072 →
      exec .rxStart s =
        .next { s with
          rxDst := s.arg2, rxTmo := s.arg0, rxBuf := [], rxState := .waitStart, rxArmed := true,
          rxDone := false, rxTimer := some s.arg0, err := .ok })

/-- The events are enabled exactly when 43_transport.md R184 says; one that is not enabled has no step. -/
def Obligations.RxEventsEnabled : Prop :=
  ∀ s : State, SafeState s →
    ((∃ t, takeTurn .rxByte s = .next t) ↔ (s.rxArmed = true ∧ s.rxIn ≠ [])) ∧
    ((∃ t, takeTurn .rxExpire s = .next t) ↔ s.rxArmed = true) ∧
    ((∃ t, takeTurn .rxIoFail s = .next t) ↔ s.rxArmed = true) ∧
    (s.rxArmed = false → ∀ e, isRxEvent e → takeTurn e s = .refused .eventNotEnabled)

/-- A byte in WAIT_START: 0xAA starts the header and restarts the timer, any other ends the receive with
UnexpectedByte; the byte leaves RX_IN either way (43_transport.md R185). -/
def Obligations.RxByteInWaitStart : Prop :=
  ∀ (s : State) (b : Byte) (rest : List Byte),
    s.rxArmed = true → s.rxState = .waitStart → s.rxIn = b :: rest →
    (b = 0xAA#8 → takeTurn .rxByte s =
      .next { s with rxIn := rest, rxBuf := [b], rxState := .header, rxTimer := some s.rxTmo }) ∧
    (b ≠ 0xAA#8 → takeTurn .rxByte s = .next (receiveEnded .unexpectedByte { s with rxIn := rest }))

/-- A byte in HEADER: collected; the fourth latches a legal length, enters BODY and restarts the timer, or ends the
receive with LengthOutOfRange (43_transport.md R186). -/
def Obligations.RxByteInHeader : Prop :=
  ∀ (s : State) (b : Byte) (rest : List Byte),
    s.rxArmed = true → s.rxState = .header → s.rxCnt ≤ 3 → s.rxIn = b :: rest →
    (s.rxCnt < 3 → takeTurn .rxByte s = .next { s with rxIn := rest, rxBuf := s.rxBuf ++ [b] }) ∧
    (s.rxCnt = 3 → 1 ≤ declaredLength (s.rxBuf ++ [b]) → declaredLength (s.rxBuf ++ [b]) ≤ 1024 →
      takeTurn .rxByte s =
        .next { s with
          rxIn := rest, rxBuf := s.rxBuf ++ [b], rxL := BitVec.ofNat 16 (declaredLength (s.rxBuf ++ [b])),
          rxState := .body, rxTimer := some s.rxTmo }) ∧
    (s.rxCnt = 3 → declaredLength (s.rxBuf ++ [b]) < 1 ∨ 1024 < declaredLength (s.rxBuf ++ [b]) →
      takeTurn .rxByte s = .next (receiveEnded .lengthOutOfRange { s with rxIn := rest }))

/-- A byte in BODY: collected; the one that completes the frame ends the receive with the parser's verdict, and an
OK outcome writes the payload, RXLEN and RXCRC in the same step (43_transport.md R187, R188). -/
def Obligations.RxByteInBody : Prop :=
  ∀ (s : State) (b : Byte) (rest f : List Byte),
    SafeState s → s.rxState = .body → s.rxIn = b :: rest → f = s.rxBuf ++ [b] →
    (f.length < 7 + s.rxL.toNat → takeTurn .rxByte s = .next { s with rxIn := rest, rxBuf := f }) ∧
    (f.length = 7 + s.rxL.toNat →
      (∀ e, firstFailure (parseChecks f) = some e →
        takeTurn .rxByte s = .next (receiveEnded e { s with rxIn := rest })) ∧
      (firstFailure (parseChecks f) = none → ∃ m,
        takeTurn .rxByte s =
          .next (receiveEnded .ok { s with
            rxIn := rest, dmem := m, rxLen := BitVec.ofNat 11 s.rxL.toNat,
            rxCrc := BitVec.ofNat 16 (crcField f) }) ∧
        storedBytes s.dmem m s.rxDst.toNat ((f.drop 4).take s.rxL.toNat)))

/-- Expiry ends an armed receive with Timeout in WAIT_START and Incomplete later; a channel failure sets FATAL and
ends it with IoFailure (43_transport.md R191, R189, R190). -/
def Obligations.RxExpireAndFail : Prop :=
  ∀ s : State, s.rxArmed = true →
    (s.rxState = .waitStart → takeTurn .rxExpire s = .next (receiveEnded .timeout s)) ∧
    (s.rxState = .header ∨ s.rxState = .body → takeTurn .rxExpire s = .next (receiveEnded .incomplete s)) ∧
    takeTurn .rxIoFail s = .next (receiveEnded .ioFailure { s with fatal := true })

/-- The codes a receive can end with, by receive state: on the byte path the parser can only succeed or raise
InvalidEndByte, UnsupportedVersion or CrcMismatch (43_transport.md section 4). -/
def Obligations.ReceiveOutcomeCodes : Prop :=
  ∀ s t : State, SafeState s → s.rxArmed = true → takeTurn .rxByte s = .next t → t.rxArmed = false →
    (s.rxState = .waitStart → t.rxErr = .unexpectedByte) ∧
    (s.rxState = .header → t.rxErr = .lengthOutOfRange ∧ s.rxCnt = 3) ∧
    (s.rxState = .body →
      (t.rxErr = .ok ∨ t.rxErr = .invalidEndByte ∨ t.rxErr = .unsupportedVersion ∨ t.rxErr = .crcMismatch) ∧
      s.rxCnt + 1 = 7 + s.rxL.toNat)

/-- An armed receive that is only given bytes ends before RX_CNT would pass 1030: at most 1031 `RxByte` events end
any receive (43_transport.md section 4; 10_state.md R28). -/
def Obligations.ReceiveEndsWithin1031 : Prop :=
  ∀ (s : State) (rest : List Turn), SafeState s → s.rxArmed = true →
    s.schedule = List.replicate (1031 - s.rxCnt) .rxByte ++ rest → 1031 - s.rxCnt ≤ s.rxIn.length →
    ∃ k t, k ≤ 1031 - s.rxCnt ∧ core.run k s = .next t ∧ t.rxArmed = false

/-- A frame of R80 that arrives whole while a receive waits for it is delivered: after its 7 + L bytes the receive
has ended OK, with the payload at RX_DST, its length in RXLEN and its checksum in RXCRC, the bytes after it still in
RX_IN and everything else as before (43_transport.md section 4). -/
def Obligations.ChannelRoundTrip : Prop :=
  ∀ (s : State) (p after : List Byte) (rest : List Turn), SafeState s → s.rxState = .waitStart →
    1 ≤ p.length → p.length ≤ 1024 → s.rxIn = frameLayout p ++ after →
    s.schedule = List.replicate (7 + p.length) .rxByte ++ rest →
    ∃ m, core.run (7 + p.length) s =
        .next (receiveEnded .ok { s with
          schedule := rest, rxIn := after, dmem := m, rxL := BitVec.ofNat 16 p.length,
          rxLen := BitVec.ofNat 11 p.length, rxCrc := BitVec.ofNat 16 (crcField (frameLayout p)) }) ∧
      storedBytes s.dmem m s.rxDst.toNat p

/-! ## Invariants and whole-machine rules -/

/-- The invariant holds after power-on (10_state.md section 5). -/
def Obligations.InvariantAtReset : Prop := SafeState State.reset

/-- Every step keeps the invariant, from every state that meets it (10_state.md section 1; 60_exceptions.md
R233). -/
def Obligations.InvariantKept : Prop := ∀ s t : State, SafeState s → step s = .next t → SafeState t

/-- STATUS.ERR only ever holds a code whose row names a command, RX_ERR one a receive can end with: from any such
state every step gives such a state (60_exceptions.md section 1). -/
def Obligations.CodesStayInTheirRows : Prop :=
  ∀ s t : State, SafeState s → s.err ∈ commandCodes → s.rxErr ∈ receiveCodes → step s = .next t →
    t.err ∈ commandCodes ∧ t.rxErr ∈ receiveCodes

/-- FATAL: set by a failing TX_SEND and by an RX channel failure and by nothing else, cleared only by reset, and while
it is set TX_SEND and RX_START raise IoFailure (60_exceptions.md R226). -/
def Obligations.FatalLifecycle : Prop :=
  (∀ s t : State, step s = .next t →
    (s.fatal = true → ¬ resetsNext s → t.fatal = true) ∧
    (s.fatal = false → t.fatal = true →
      s.schedule.head? = some .rxIoFail ∨ (issuesNext .txSend s ∧ t.err = .ioFailure))) ∧
  (∀ s t : State, resetsNext s → step s = .next t → t.fatal = false) ∧
  (∀ s t : State, exec .txSend s = .next t → t.err = .ioFailure → t.fatal = true) ∧
  (∀ s t : State, takeTurn .rxIoFail s = .next t → t.fatal = true) ∧
  ∀ (s : State) (i : Instr), i = .txSend ∨ i = .rxStart → s.rxArmed = false → s.fatal = true →
    raises i s .ioFailure

/-- ACC changes only by CRC_INIT, CRC_BYTE, a host write to CRC, or reset (10_state.md section 1). -/
def Obligations.AccChangedOnlyBy : Prop :=
  ∀ s t : State, step s = .next t → t.acc ≠ s.acc →
    resetsNext s ∨ issuesNext .crcInit s ∨ issuesNext .crcByte s ∨
      ∃ w, nextHostAction s = some (.access (.wr32 0x01C w))

/-- DMEM changes only by a host byte write, an encoder or FRAME_BUILD, or the byte that ends a receive OK; RXLEN and
RXCRC only by the last or by reset (20_memory.md section 4; 10_state.md section 1). -/
def Obligations.DmemChangedOnlyBy : Prop :=
  ∀ s t : State, step s = .next t →
    (t.dmem ≠ s.dmem →
      (∃ off b, nextHostAction s = some (.access (.wr8 off b))) ∨
      issuesNext .varintEnc s ∨ issuesNext .bytesEnc s ∨ issuesNext .stringEnc s ∨ issuesNext .frameBuild s ∨
      (s.schedule.head? = some .rxByte ∧ s.rxState = .body ∧ t.rxErr = .ok ∧ t.rxDone = true)) ∧
    (t.rxLen ≠ s.rxLen ∨ t.rxCrc ≠ s.rxCrc →
      resetsNext s ∨ (s.schedule.head? = some .rxByte ∧ s.rxState = .body ∧ t.rxErr = .ok ∧ t.rxDone = true))

/-- A command never writes RX_ERR, and an RX event never writes STATUS.ERR or a result register (60_exceptions.md
section 2). -/
def Obligations.StatusFieldsIndependent : Prop :=
  (∀ (i : Instr) (s t : State), exec i s = .next t → t.rxErr = s.rxErr ∧ t.rxLen = s.rxLen ∧ t.rxCrc = s.rxCrc) ∧
  ∀ (e : Turn) (s t : State), isRxEvent e → takeTurn e s = .next t →
    t.err = s.err ∧ t.res0 = s.res0 ∧ t.res1 = s.res1 ∧ t.acc = s.acc ∧ t.txOut = s.txOut

/-! ## The host's accesses and reset -/

/-- A host register read changes nothing but what the host has seen, and returns the register's word, 0 for CMD and
at every reserved offset (10_state.md R20, R21). -/
def Obligations.HostReadsHaveNoEffect : Prop :=
  ∀ (s : State) (off : Nat), off % 4 = 0 → off < 0x1000 → ∃ v : Word,
    hostAct s (.access (.rd32 off)) = .next { s with observed := .reg off v :: s.observed } ∧
    (off = 0x000 ∨ 0x02C ≤ off → v = 0#32) ∧
    (off = 0x004 → v = s.arg0) ∧ (off = 0x008 → v = s.arg1) ∧ (off = 0x00C → v = s.arg2) ∧
    (off = 0x010 → v = s.res0) ∧ (off = 0x014 → v = s.res1) ∧ (off = 0x018 → v = s.statusWord) ∧
    (off = 0x01C → v.toNat = s.acc.toNat) ∧ (off = 0x020 → v = s.rxStatusWord) ∧
    (off = 0x024 → v.toNat = s.rxLen.toNat) ∧ (off = 0x028 → v.toNat = s.rxCrc.toNat)

/-- The fields of the STATUS and RXSTATUS words stand at their bits and the reserved bits read 0 (10_state.md R25,
R28); every result code and receive state has the number its table gives it (60_exceptions.md R220, 43_transport.md
R182). -/
def Obligations.StatusWordFields : Prop :=
  (∀ s : State, SafeState s →
    s.statusWord.toNat =
      s.err.code.toNat + 2 ^ 8 * s.fatal.toNat + 2 ^ 9 * s.rxArmed.toNat + 2 ^ 10 * s.rxDone.toNat ∧
    s.rxStatusWord.toNat = s.rxErr.code.toNat + 2 ^ 8 * s.rxState.code.toNat + 2 ^ 16 * s.rxCnt) ∧
  (∀ e : ResultCode, (e, e.code.toNat) ∈ resultCodeTable) ∧
  ∀ r : RxState, (r, r.code.toNat) ∈ rxStateTable

/-- A 32-bit host write elsewhere than CMD: ARG0 to ARG2 take the word, CRC its low half, every read-only register
and reserved offset ignores it; STATUS.ERR is never touched (10_state.md R21, R23). -/
def Obligations.HostWritesStore : Prop :=
  ∀ (s : State) (off : Nat) (w : Word), off % 4 = 0 → 0x004 ≤ off → off < 0x1000 →
    hostAct s (.access (.wr32 off w)) =
      .next (if off = 0x004 then { s with arg0 := w }
        else if off = 0x008 then { s with arg1 := w }
        else if off = 0x00C then { s with arg2 := w }
        else if off = 0x01C then { s with acc := BitVec.ofNat 16 (w.toNat % 65536) }
        else s)

/-- Host DMEM accesses: a write stores one byte and leaves every other, a read returns the byte last written and
faults on one never written since power-on (20_memory.md section 2; 70_reset_and_hazards.md section 1). -/
def Obligations.HostDmemAccess : Prop :=
  ∀ (s : State) (a : Nat), a < 4096 →
    (∀ b, ∃ m, hostAct s (.access (.wr8 (0x1000 + a) b)) = .next { s with dmem := m } ∧
      storedBytes s.dmem m a [b]) ∧
    (∀ b, s.dmem.read a = some b →
      hostAct s (.access (.rd8 (0x1000 + a))) = .next { s with observed := .dmem a b :: s.observed }) ∧
    (s.dmem.read a = none → hostAct s (.access (.rd8 (0x1000 + a))) = .fault .unwrittenByte)

/-- A 32-bit access at a multiple of 4 below 0x1000 and an 8-bit access at 0x1000 to 0x1FFF have a step; any other host
access is refused: 16 bits wide, a register access off a multiple of 4, 8 bits outside the DMEM window, 32 bits outside
the registers (20_memory.md R53). -/
def Obligations.MisshapenAccessesRefused : Prop :=
  ∀ (s : State) (off : Nat) (b : Byte) (h : Half) (w : Word),
    hostAct s (.access (.rd16 off)) = .refused .hostAccess ∧
    hostAct s (.access (.wr16 off h)) = .refused .hostAccess ∧
    (off < 0x1000 ∨ 0x2000 ≤ off →
      hostAct s (.access (.rd8 off)) = .refused .hostAccess ∧
      hostAct s (.access (.wr8 off b)) = .refused .hostAccess) ∧
    (off % 4 ≠ 0 ∨ 0x1000 ≤ off →
      hostAct s (.access (.rd32 off)) = .refused .hostAccess ∧
      hostAct s (.access (.wr32 off w)) = .refused .hostAccess) ∧
    ∀ r : Refusal,
      (off % 4 = 0 → off < 0x1000 →
        hostAct s (.access (.rd32 off)) ≠ .refused r ∧ hostAct s (.access (.wr32 off w)) ≠ .refused r) ∧
      (0x1000 ≤ off → off < 0x2000 →
        hostAct s (.access (.rd8 off)) ≠ .refused r ∧ hostAct s (.access (.wr8 off b)) ≠ .refused r)

/-- Reset, by the platform or the host program's line: every register and field at its reset value, the receive
ended without an outcome, FATAL cleared, the timer stopped; DMEM, RX_IN and TX_OUT as they were
(70_reset_and_hazards.md R250). That the host's position and the schedule stay is the model's choice, log 12. -/
def Obligations.ResetEvent : Prop :=
  ∀ s : State, ∃ t : State, takeTurn .platformReset s = .next t ∧ hostAct s .reset = .next t ∧
    t.arg0 = 0#32 ∧ t.arg1 = 0#32 ∧ t.arg2 = 0#32 ∧ t.res0 = 0#32 ∧ t.res1 = 0#32 ∧
    t.statusWord = 0x00000000#32 ∧ t.crcWord = 0x0000FFFF#32 ∧ t.rxStatusWord = 0x00000000#32 ∧
    t.rxLenWord = 0x00000000#32 ∧ t.rxCrcWord = 0x00000000#32 ∧
    t.rxL = 0#16 ∧ t.rxDst = 0#32 ∧ t.rxTmo = 0#32 ∧ t.rxTimer = none ∧
    t.dmem = s.dmem ∧ t.rxIn = s.rxIn ∧ t.txOut = s.txOut ∧ t.hostPos = s.hostPos ∧ t.schedule = s.schedule

/-- Host control flow: `bz` goes to its target when the bit of the value last read from the register is 0, `bnz`
when it is 1, `b` always; otherwise the host goes on, and the block sees none of it (30_encoding.md R78; that a
bit number of 32 or more reads as 0 is the model's choice, log 21). -/
def Obligations.HostBranches : Prop :=
  ∀ (s : State) (r : HostReg) (bit target : Nat),
    hostAct s (.b target) = .next { s with hostPos := target } ∧
    ∀ v, lastRead (regOffset r) s.observed = some v →
      (v.getLsbD bit = false →
        hostAct s (.bz r bit target) = .next { s with hostPos := target } ∧
        hostAct s (.bnz r bit target) = .next s) ∧
      (v.getLsbD bit = true →
        hostAct s (.bz r bit target) = .next s ∧
        hostAct s (.bnz r bit target) = .next { s with hostPos := target })

/-! ## The consumer's codec -/

/-- Decoding an encoded Message gives it back, for every variant whose data length fits a varint (30_encoding.md
R101). -/
def Obligations.MessageRoundTrip : Prop :=
  ∀ m : Message, messageDataLength m < 2 ^ 32 → decodeMessage (encodeMessage m) = .ok m
end

