-- ==== Sys2Proof/Laws/Decode.lean ====
section
/-! SUPPORT. The decoder looks at OPC alone (30_encoding.md R71). -/

namespace Sys2Proof

theorem and_opcMask (w : Word) : w &&& 0x000000FF#32 = (w.setWidth 8).setWidth 32 := by
  apply BitVec.eq_of_toNat_eq
  have h : (255 : Nat) = 2 ^ 8 - 1 := rfl
  simp only [BitVec.toNat_and, BitVec.toNat_ofNat, BitVec.toNat_setWidth]
  rw [show 255 % 2 ^ 32 = 2 ^ 8 - 1 from rfl, Nat.and_two_pow_sub_one_eq_mod]
  omega

theorem findRow_eq_of_opc {w v : Word} (h : w.setWidth 8 = v.setWidth 8) (t : List OpcodeRow)
    (ht : ∀ row ∈ t, row.mask = 0x000000FF#32) : findRow w t = findRow v t := by
  induction t with
  | nil => rfl
  | cons row t ih =>
    have hm := ht row (by simp)
    simp only [findRow, hm, and_opcMask, h]
    rw [ih fun r hr => ht r (by simp [hr])]

/-- Words with the same OPC decode alike. -/
theorem decode_eq_of_opc {w v : Word} (h : w.setWidth 8 = v.setWidth 8) : decode w = decode v := by
  have := findRow_eq_of_opc h opcodeTable (by decide)
  simp only [decode, this, opcField, h]

/-- A word decodes as its OPC alone does. -/
theorem decode_opc (w : Word) : decode w = decode ((w.setWidth 8).setWidth 32) :=
  decode_eq_of_opc (by apply BitVec.eq_of_toNat_eq; simp)

end Sys2Proof
end

