-- ==== Sys2Proof/Laws/Issue.lean ====
section
/-! SUPPORT. What the shared operations of a command can do, said once: the bind of the command monad, raising,
the range check, the use of bytes, completion and issue. -/

namespace Sys2Proof.Machine

variable {α β : Type}

@[simp] theorem ok_bind (a : α) (f : α → Except Stop β) : (Except.ok a >>= f) = f a := rfl

@[simp] theorem error_bind (e : Stop) (f : α → Except Stop β) : ((Except.error e : Except Stop α) >>= f) = .error e :=
  rfl

@[simp] theorem pure_ok (a : α) : (pure a : Except Stop α) = .ok a := rfl

@[simp] theorem raise_bind (e : ResultCode) (f : α → Except Stop β) : ((raise e : Except Stop α) >>= f) = raise e :=
  rfl

theorem bind_eq_ok (x : Except Stop α) (f : α → Except Stop β) (b : β) :
    (x >>= f) = .ok b ↔ ∃ a, x = .ok a ∧ f a = .ok b := by
  cases x <;> simp

theorem bind_eq_error (x : Except Stop α) (f : α → Except Stop β) (e : Stop) :
    (x >>= f) = .error e ↔ x = .error e ∨ ∃ a, x = .ok a ∧ f a = .error e := by
  cases x <;> simp

@[simp] theorem raiseIf_true (e : ResultCode) : raiseIf true e = raise e := rfl

@[simp] theorem raiseIf_false (e : ResultCode) : raiseIf false e = .ok () := rfl

theorem raiseIf_eq_ok (c : Bool) (e : ResultCode) (u : Unit) : raiseIf c e = .ok u ↔ c = false := by
  cases c <;> simp [raise]

theorem raiseIf_eq_error (c : Bool) (e : ResultCode) (x : Stop) :
    raiseIf c e = .error x ↔ c = true ∧ x = .raise e := by
  cases c <;> simp [raise, eq_comm]

theorem checkRange_of_le {a n : Nat} (h : a + n ≤ 4096) : checkRange a n = .ok () := by
  have : ¬ 4096 < a + n := by omega
  simp [checkRange, this]

theorem checkRange_of_lt {a n : Nat} (h : 4096 < a + n) : checkRange a n = raise .addressRange := by
  simp [checkRange, h]

theorem checkRange_eq_ok (a n : Nat) (u : Unit) : checkRange a n = .ok u ↔ a + n ≤ 4096 := by
  simp [checkRange, raiseIf_eq_ok]

theorem checkRange_eq_error (a n : Nat) (x : Stop) :
    checkRange a n = .error x ↔ 4096 < a + n ∧ x = .raise .addressRange := by
  simp [checkRange, raiseIf_eq_error]

@[simp] theorem useByte_some (b : Byte) : useByte (some b) = .ok b := rfl

@[simp] theorem useByte_none : useByte none = .error (.fault .unwrittenByte) := rfl

theorem useByte_eq_error (x : Option Byte) (e : Stop) :
    useByte x = .error e ↔ x = none ∧ e = .fault .unwrittenByte := by
  cases x <;> simp [eq_comm]

theorem useAt_eq_error (f : List (Option Byte)) (i : Nat) (e : Stop) (h : useAt f i = .error e) :
    e = .fault .unwrittenByte := ((useByte_eq_error _ _).1 h).2

theorem useAt_of_getElem? {f : List (Option Byte)} {i : Nat} {b : Byte} (h : f[i]? = some (some b)) :
    useAt f i = .ok b := by simp [useAt, h]

/-- Using byte i of a sequence that is written everywhere. -/
theorem useAt_map_some (d : List Byte) (i : Nat) (h : i < d.length) : useAt (d.map some) i = .ok (d.getD i 0#8) := by
  simp [useAt, h]

@[simp] theorem useAll_nil : useAll [] = .ok [] := rfl

@[simp] theorem useAll_cons (x : Option Byte) (rest : List (Option Byte)) :
    useAll (x :: rest) = (useByte x >>= fun b => useAll rest >>= fun bs => .ok (b :: bs)) := rfl

/-- Using every byte gives the bytes, when all are written. -/
@[simp] theorem useAll_map_some (d : List Byte) : useAll (d.map some) = .ok d := by
  induction d with
  | nil => rfl
  | cons b d ih => simp [ih]

theorem useAll_eq_ok (x : List (Option Byte)) (d : List Byte) : useAll x = .ok d ↔ x = d.map some := by
  constructor
  · intro h
    induction x generalizing d with
    | nil => simp at h; simp [← h]
    | cons y x ih =>
      rw [useAll_cons, bind_eq_ok] at h
      obtain ⟨b, hb, h⟩ := h
      rw [bind_eq_ok] at h
      obtain ⟨bs, hbs, h⟩ := h
      cases y with
      | none => simp at hb
      | some y => simp at hb h; simp [← h, hb, ih _ hbs]
  · rintro rfl; simp

theorem useAll_eq_error (x : List (Option Byte)) (e : Stop) :
    useAll x = .error e ↔ none ∈ x ∧ e = .fault .unwrittenByte := by
  induction x with
  | nil => simp
  | cons y x ih =>
    cases y with
    | none => simp [eq_comm]
    | some y =>
      simp only [useAll_cons, useByte_some, ok_bind, bind_eq_error, ih, List.mem_cons]
      simp

/-! ## Completion and issue -/

@[simp] theorem complete_ok (s t : State) : complete s (.ok t) = .next t := rfl

@[simp] theorem complete_raise (s : State) (e : ResultCode) : complete s (raise e) = .next (s.raised e) := rfl

@[simp] theorem complete_raise' (s : State) (e : ResultCode) :
    complete s (.error (.raise e)) = .next (s.raised e) := rfl

@[simp] theorem complete_fault (s : State) (f : Fault) : complete s (.error (.fault f)) = .fault f := rfl

theorem issue_busy {s : State} (body : Except Stop State) (h : s.rxArmed = true) :
    issue s body = .next (s.raised .busy) := by simp [issue, h]

theorem issue_free {s : State} (body : Except Stop State) (h : s.rxArmed = false) :
    issue s body = complete s body := by simp [issue, h]

/-- Everything an issue can do when it answers a next state. -/
theorem issue_eq_next {s t : State} {body : Except Stop State} (h : issue s body = .next t) :
    (s.rxArmed = true ∧ t = s.raised .busy) ∨
    (s.rxArmed = false ∧ (body = .ok t ∨ ∃ e, body = .error (.raise e) ∧ t = s.raised e)) := by
  cases ha : s.rxArmed with
  | true => rw [issue_busy _ ha] at h; left; exact ⟨rfl, by injection h with h; exact h.symm⟩
  | false =>
    rw [issue_free _ ha] at h
    right
    refine ⟨rfl, ?_⟩
    match body, h with
    | .ok u, h => left; simp at h; rw [h]
    | .error (.raise e), h => right; simp at h; exact ⟨e, rfl, h.symm⟩
    | .error (.fault f), h => simp at h

/-- An issue is never refused. -/
theorem issue_not_refused (s : State) (body : Except Stop State) (r : Refusal) : issue s body ≠ .refused r := by
  unfold issue
  split
  · simp
  · match body with
    | .ok u => simp
    | .error (.raise e) => simp
    | .error (.fault f) => simp

end Sys2Proof.Machine
end

