-- ==== Sys2Proof/Laws/Memory.lean ====
section
/-! SUPPORT. The laws of DMEM: read after write, the rest unchanged, and the canonical form kept by every memory
operation. -/

namespace Sys2Proof.Machine

@[simp] theorem Memory.read_nil (a : Nat) : Memory.read [] a = none := rfl

theorem Memory.read_write (m : Memory) (a k : Nat) (b : Byte) :
    (m.write a b).read k = if k = a then some b else m.read k := by
  induction m with
  | nil => simp only [Memory.write, Memory.read]; split <;> split <;> simp_all
  | cons c m ih =>
    obtain ⟨k', v⟩ := c
    simp only [Memory.write]
    split
    · simp only [Memory.read]; grind
    · split
      · simp only [Memory.read]; grind
      · simp only [Memory.read, ih]; grind

@[simp] theorem Memory.read_write_same (m : Memory) (a : Nat) (b : Byte) : (m.write a b).read a = some b := by
  simp [Memory.read_write]

theorem Memory.read_write_other (m : Memory) {a k : Nat} (b : Byte) (h : k ≠ a) :
    (m.write a b).read k = m.read k := by
  simp [Memory.read_write, h]

@[simp] theorem Memory.writeBytes_nil (m : Memory) (a : Nat) : m.writeBytes a [] = m := rfl

@[simp] theorem Memory.writeBytes_cons (m : Memory) (a : Nat) (b : Byte) (bs : List Byte) :
    m.writeBytes a (b :: bs) = (m.write a b).writeBytes (a + 1) bs := rfl

/-- What a read returns after the bytes `bs` were stored from `a` on. -/
theorem Memory.read_writeBytes (bs : List Byte) (m : Memory) (a k : Nat) :
    (m.writeBytes a bs).read k = if a ≤ k ∧ k < a + bs.length then bs[k - a]? else m.read k := by
  induction bs generalizing m a with
  | nil => simp
  | cons b bs ih =>
    rw [Memory.writeBytes_cons, ih, Memory.read_write]
    by_cases h1 : k = a
    · subst h1; simp
    · by_cases h2 : a + 1 ≤ k ∧ k < a + 1 + bs.length
      · have : k - a = (k - (a + 1)) + 1 := by omega
        simp [h2, this]; omega
      · have : ¬ (a ≤ k ∧ k < a + (bs.length + 1)) := by omega
        rw [if_neg h2, if_neg h1, List.length_cons, if_neg this]

theorem Memory.read_writeBytes_outside (bs : List Byte) (m : Memory) (a k : Nat)
    (h : k < a ∨ a + bs.length ≤ k) : (m.writeBytes a bs).read k = m.read k := by
  rw [Memory.read_writeBytes, if_neg (by omega)]

theorem Memory.read_writeBytes_inside (bs : List Byte) (m : Memory) (a i : Nat) (h : i < bs.length) :
    (m.writeBytes a bs).read (a + i) = bs[i]? := by
  rw [Memory.read_writeBytes, if_pos (by omega)]; simp

/-! ## The canonical form -/

theorem Memory.risesFrom_mono {low low' : Nat} (h : low' ≤ low) (m : Memory) :
    Memory.risesFrom low m = true → Memory.risesFrom low' m = true := by
  cases m with
  | nil => simp [Memory.risesFrom]
  | cons c m => simp only [Memory.risesFrom, Bool.and_eq_true, decide_eq_true_eq]; grind

theorem Memory.risesFrom_write (m : Memory) (low a : Nat) (b : Byte) (hl : low ≤ a)
    (h : Memory.risesFrom low m = true) : Memory.risesFrom low (m.write a b) = true := by
  induction m generalizing low with
  | nil => simpa [Memory.write, Memory.risesFrom] using hl
  | cons c m ih =>
    obtain ⟨k, v⟩ := c
    simp only [Memory.risesFrom, Bool.and_eq_true, decide_eq_true_eq] at h
    simp only [Memory.write]
    split
    · simp only [Memory.risesFrom, Bool.and_eq_true, decide_eq_true_eq]; grind
    · split
      · simp only [Memory.risesFrom, Bool.and_eq_true, decide_eq_true_eq]; grind
      · simp only [Memory.risesFrom, Bool.and_eq_true, decide_eq_true_eq]
        exact ⟨h.1, ih (k + 1) (by omega) h.2⟩

theorem Memory.all_write (p : Host.Cell → Bool) (m : Memory) (a : Nat) (b : Byte) (hp : p (a, b) = true)
    (h : m.all p = true) : (m.write a b).all p = true := by
  induction m with
  | nil => simpa [Memory.write] using hp
  | cons c m ih =>
    obtain ⟨k, v⟩ := c
    simp only [List.all_cons, Bool.and_eq_true] at h
    simp only [Memory.write]
    split
    · simp [List.all_cons, hp, h.1, h.2]
    · split
      · simp [List.all_cons, hp, h.2]
      · simp [List.all_cons, h.1, ih h.2]

/-- A write inside DMEM keeps the canonical form. -/
theorem Memory.wf_write (m : Memory) (a : Nat) (b : Byte) (ha : a < 4096) (h : m.wf = true) :
    (m.write a b).wf = true := by
  simp only [Memory.wf, Bool.and_eq_true] at h ⊢
  exact ⟨Memory.risesFrom_write m 0 a b (Nat.zero_le _) h.1, Memory.all_write _ m a b (by simpa using ha) h.2⟩

/-- Storing bytes inside DMEM keeps the canonical form. -/
theorem Memory.wf_writeBytes (bs : List Byte) (m : Memory) (a : Nat) (ha : a + bs.length ≤ 4096)
    (h : m.wf = true) : (m.writeBytes a bs).wf = true := by
  induction bs generalizing m a with
  | nil => exact h
  | cons b bs ih =>
    simp only [List.length_cons] at ha
    exact ih _ _ (by omega) (Memory.wf_write m a b (by omega) h)

theorem Memory.wf_nil : Memory.wf [] = true := rfl

/-- In canonical form equal reads make equal memories: nothing about DMEM hides in the list. -/
theorem Memory.read_none_of_risesFrom (m : Memory) (low k : Nat) (h : Memory.risesFrom low m = true) (hk : k < low) :
    m.read k = none := by
  induction m generalizing low with
  | nil => rfl
  | cons c m ih =>
    obtain ⟨k', v⟩ := c
    simp only [Memory.risesFrom, Bool.and_eq_true, decide_eq_true_eq] at h
    simp only [Memory.read]
    rw [if_neg (by omega)]
    exact ih (k' + 1) h.2 (by omega)

theorem Memory.ext_of_risesFrom (m n : Memory) (low : Nat) (hm : Memory.risesFrom low m = true)
    (hn : Memory.risesFrom low n = true) (h : ∀ k, m.read k = n.read k) : m = n := by
  induction m generalizing n low with
  | nil =>
    cases n with
    | nil => rfl
    | cons c n => have := h c.1; simp [Memory.read] at this
  | cons c m ih =>
    obtain ⟨k, v⟩ := c
    cases n with
    | nil => have := h k; simp [Memory.read] at this
    | cons c' n =>
      obtain ⟨k', v'⟩ := c'
      simp only [Memory.risesFrom, Bool.and_eq_true, decide_eq_true_eq] at hm hn
      have hk : k = k' := by
        rcases Nat.lt_trichotomy k k' with hlt | heq | hgt
        · have h1 := h k
          have h2 := Memory.read_none_of_risesFrom n (k' + 1) k hn.2 (by omega)
          simp [Memory.read, h2] at h1; omega
        · exact heq
        · have h1 := h k'
          have h2 := Memory.read_none_of_risesFrom m (k + 1) k' hm.2 (by omega)
          simp [Memory.read, h2] at h1; omega
      subst hk
      have hv : v = v' := by have := h k; simpa [Memory.read] using this
      subst hv
      have : m = n := by
        refine ih n (k + 1) hm.2 hn.2 fun j => ?_
        by_cases hj : j < k + 1
        · rw [Memory.read_none_of_risesFrom m _ j hm.2 hj, Memory.read_none_of_risesFrom n _ j hn.2 hj]
        · have := h j; simpa [Memory.read, show ¬ k = j by omega] using this
      rw [this]

/-- Equal memories are equal data. -/
theorem Memory.ext_of_wf (m n : Memory) (hm : m.wf = true) (hn : n.wf = true) (h : ∀ k, m.read k = n.read k) :
    m = n := by
  simp only [Memory.wf, Bool.and_eq_true] at hm hn
  exact Memory.ext_of_risesFrom m n 0 hm.1 hn.1 h

/-! ## Reading a range -/

@[simp] theorem Memory.readBytes_length (m : Memory) (a n : Nat) : (m.readBytes a n).length = n := by
  induction n generalizing a with
  | zero => rfl
  | succ n ih => simp [Memory.readBytes, ih]

theorem Memory.readBytes_getElem? (m : Memory) (a n i : Nat) :
    (m.readBytes a n)[i]? = if i < n then some (m.read (a + i)) else none := by
  induction n generalizing a i with
  | zero => simp [Memory.readBytes]
  | succ n ih =>
    cases i with
    | zero => simp [Memory.readBytes]
    | succ i => simp [Memory.readBytes, ih]; grind

theorem Memory.readBytes_take (m : Memory) (a n k : Nat) (h : k ≤ n) :
    (m.readBytes a n).take k = m.readBytes a k := by
  apply List.ext_getElem?; intro i
  rw [List.getElem?_take, Memory.readBytes_getElem?, Memory.readBytes_getElem?]; grind

theorem Memory.readBytes_drop (m : Memory) (a n k : Nat) :
    (m.readBytes a n).drop k = m.readBytes (a + k) (n - k) := by
  apply List.ext_getElem?; intro i
  rw [List.getElem?_drop, Memory.readBytes_getElem?, Memory.readBytes_getElem?]; grind

/-- The range holds exactly the bytes `d`, all written. -/
theorem Memory.readBytes_eq_map_some (m : Memory) (a : Nat) (d : List Byte)
    (h : ∀ i, i < d.length → m.read (a + i) = d[i]?) : m.readBytes a d.length = d.map some := by
  apply List.ext_getElem?
  intro i
  rw [Memory.readBytes_getElem?]
  by_cases hi : i < d.length
  · simp [hi, h i hi]
  · simp [hi]

end Sys2Proof.Machine
end

