-- ==== Sys2Proof/Laws/State.lean ====
section
/-! SUPPORT. One lemma per field per update of State, so that no later proof unfolds a record update. -/

namespace Sys2Proof.Machine

/-! ### State.raised -/

@[simp] theorem State.raised_arg0 (e : ResultCode) (s : State) : (s.raised e).arg0 = s.arg0 := rfl
@[simp] theorem State.raised_arg1 (e : ResultCode) (s : State) : (s.raised e).arg1 = s.arg1 := rfl
@[simp] theorem State.raised_arg2 (e : ResultCode) (s : State) : (s.raised e).arg2 = s.arg2 := rfl
@[simp] theorem State.raised_res0 (e : ResultCode) (s : State) : (s.raised e).res0 = s.res0 := rfl
@[simp] theorem State.raised_res1 (e : ResultCode) (s : State) : (s.raised e).res1 = s.res1 := rfl
@[simp] theorem State.raised_err (e : ResultCode) (s : State) : (s.raised e).err = e := rfl
@[simp] theorem State.raised_fatal (e : ResultCode) (s : State) : (s.raised e).fatal = s.fatal := rfl
@[simp] theorem State.raised_rxArmed (e : ResultCode) (s : State) : (s.raised e).rxArmed = s.rxArmed := rfl
@[simp] theorem State.raised_rxDone (e : ResultCode) (s : State) : (s.raised e).rxDone = s.rxDone := rfl
@[simp] theorem State.raised_acc (e : ResultCode) (s : State) : (s.raised e).acc = s.acc := rfl
@[simp] theorem State.raised_rxErr (e : ResultCode) (s : State) : (s.raised e).rxErr = s.rxErr := rfl
@[simp] theorem State.raised_rxState (e : ResultCode) (s : State) : (s.raised e).rxState = s.rxState := rfl
@[simp] theorem State.raised_rxLen (e : ResultCode) (s : State) : (s.raised e).rxLen = s.rxLen := rfl
@[simp] theorem State.raised_rxCrc (e : ResultCode) (s : State) : (s.raised e).rxCrc = s.rxCrc := rfl
@[simp] theorem State.raised_dmem (e : ResultCode) (s : State) : (s.raised e).dmem = s.dmem := rfl
@[simp] theorem State.raised_rxBuf (e : ResultCode) (s : State) : (s.raised e).rxBuf = s.rxBuf := rfl
@[simp] theorem State.raised_rxL (e : ResultCode) (s : State) : (s.raised e).rxL = s.rxL := rfl
@[simp] theorem State.raised_rxDst (e : ResultCode) (s : State) : (s.raised e).rxDst = s.rxDst := rfl
@[simp] theorem State.raised_rxTmo (e : ResultCode) (s : State) : (s.raised e).rxTmo = s.rxTmo := rfl
@[simp] theorem State.raised_rxTimer (e : ResultCode) (s : State) : (s.raised e).rxTimer = s.rxTimer := rfl
@[simp] theorem State.raised_rxIn (e : ResultCode) (s : State) : (s.raised e).rxIn = s.rxIn := rfl
@[simp] theorem State.raised_txOut (e : ResultCode) (s : State) : (s.raised e).txOut = s.txOut := rfl
@[simp] theorem State.raised_txDraws (e : ResultCode) (s : State) : (s.raised e).txDraws = s.txDraws := rfl
@[simp] theorem State.raised_freeDraws (e : ResultCode) (s : State) : (s.raised e).freeDraws = s.freeDraws := rfl
@[simp] theorem State.raised_schedule (e : ResultCode) (s : State) : (s.raised e).schedule = s.schedule := rfl
@[simp] theorem State.raised_hostProgram (e : ResultCode) (s : State) : (s.raised e).hostProgram = s.hostProgram := rfl
@[simp] theorem State.raised_hostPos (e : ResultCode) (s : State) : (s.raised e).hostPos = s.hostPos := rfl
@[simp] theorem State.raised_observed (e : ResultCode) (s : State) : (s.raised e).observed = s.observed := rfl

/-! ### State.finish -/

@[simp] theorem State.finish_arg0 (s : State) : (s.finish).arg0 = s.arg0 := rfl
@[simp] theorem State.finish_arg1 (s : State) : (s.finish).arg1 = s.arg1 := rfl
@[simp] theorem State.finish_arg2 (s : State) : (s.finish).arg2 = s.arg2 := rfl
@[simp] theorem State.finish_res0 (s : State) : (s.finish).res0 = s.res0 := rfl
@[simp] theorem State.finish_res1 (s : State) : (s.finish).res1 = s.res1 := rfl
@[simp] theorem State.finish_err (s : State) : (s.finish).err = .ok := rfl
@[simp] theorem State.finish_fatal (s : State) : (s.finish).fatal = s.fatal := rfl
@[simp] theorem State.finish_rxArmed (s : State) : (s.finish).rxArmed = s.rxArmed := rfl
@[simp] theorem State.finish_rxDone (s : State) : (s.finish).rxDone = s.rxDone := rfl
@[simp] theorem State.finish_acc (s : State) : (s.finish).acc = s.acc := rfl
@[simp] theorem State.finish_rxErr (s : State) : (s.finish).rxErr = s.rxErr := rfl
@[simp] theorem State.finish_rxState (s : State) : (s.finish).rxState = s.rxState := rfl
@[simp] theorem State.finish_rxLen (s : State) : (s.finish).rxLen = s.rxLen := rfl
@[simp] theorem State.finish_rxCrc (s : State) : (s.finish).rxCrc = s.rxCrc := rfl
@[simp] theorem State.finish_dmem (s : State) : (s.finish).dmem = s.dmem := rfl
@[simp] theorem State.finish_rxBuf (s : State) : (s.finish).rxBuf = s.rxBuf := rfl
@[simp] theorem State.finish_rxL (s : State) : (s.finish).rxL = s.rxL := rfl
@[simp] theorem State.finish_rxDst (s : State) : (s.finish).rxDst = s.rxDst := rfl
@[simp] theorem State.finish_rxTmo (s : State) : (s.finish).rxTmo = s.rxTmo := rfl
@[simp] theorem State.finish_rxTimer (s : State) : (s.finish).rxTimer = s.rxTimer := rfl
@[simp] theorem State.finish_rxIn (s : State) : (s.finish).rxIn = s.rxIn := rfl
@[simp] theorem State.finish_txOut (s : State) : (s.finish).txOut = s.txOut := rfl
@[simp] theorem State.finish_txDraws (s : State) : (s.finish).txDraws = s.txDraws := rfl
@[simp] theorem State.finish_freeDraws (s : State) : (s.finish).freeDraws = s.freeDraws := rfl
@[simp] theorem State.finish_schedule (s : State) : (s.finish).schedule = s.schedule := rfl
@[simp] theorem State.finish_hostProgram (s : State) : (s.finish).hostProgram = s.hostProgram := rfl
@[simp] theorem State.finish_hostPos (s : State) : (s.finish).hostPos = s.hostPos := rfl
@[simp] theorem State.finish_observed (s : State) : (s.finish).observed = s.observed := rfl

/-! ### State.observe -/

@[simp] theorem State.observe_arg0 (o : Observation) (s : State) : (s.observe o).arg0 = s.arg0 := rfl
@[simp] theorem State.observe_arg1 (o : Observation) (s : State) : (s.observe o).arg1 = s.arg1 := rfl
@[simp] theorem State.observe_arg2 (o : Observation) (s : State) : (s.observe o).arg2 = s.arg2 := rfl
@[simp] theorem State.observe_res0 (o : Observation) (s : State) : (s.observe o).res0 = s.res0 := rfl
@[simp] theorem State.observe_res1 (o : Observation) (s : State) : (s.observe o).res1 = s.res1 := rfl
@[simp] theorem State.observe_err (o : Observation) (s : State) : (s.observe o).err = s.err := rfl
@[simp] theorem State.observe_fatal (o : Observation) (s : State) : (s.observe o).fatal = s.fatal := rfl
@[simp] theorem State.observe_rxArmed (o : Observation) (s : State) : (s.observe o).rxArmed = s.rxArmed := rfl
@[simp] theorem State.observe_rxDone (o : Observation) (s : State) : (s.observe o).rxDone = s.rxDone := rfl
@[simp] theorem State.observe_acc (o : Observation) (s : State) : (s.observe o).acc = s.acc := rfl
@[simp] theorem State.observe_rxErr (o : Observation) (s : State) : (s.observe o).rxErr = s.rxErr := rfl
@[simp] theorem State.observe_rxState (o : Observation) (s : State) : (s.observe o).rxState = s.rxState := rfl
@[simp] theorem State.observe_rxLen (o : Observation) (s : State) : (s.observe o).rxLen = s.rxLen := rfl
@[simp] theorem State.observe_rxCrc (o : Observation) (s : State) : (s.observe o).rxCrc = s.rxCrc := rfl
@[simp] theorem State.observe_dmem (o : Observation) (s : State) : (s.observe o).dmem = s.dmem := rfl
@[simp] theorem State.observe_rxBuf (o : Observation) (s : State) : (s.observe o).rxBuf = s.rxBuf := rfl
@[simp] theorem State.observe_rxL (o : Observation) (s : State) : (s.observe o).rxL = s.rxL := rfl
@[simp] theorem State.observe_rxDst (o : Observation) (s : State) : (s.observe o).rxDst = s.rxDst := rfl
@[simp] theorem State.observe_rxTmo (o : Observation) (s : State) : (s.observe o).rxTmo = s.rxTmo := rfl
@[simp] theorem State.observe_rxTimer (o : Observation) (s : State) : (s.observe o).rxTimer = s.rxTimer := rfl
@[simp] theorem State.observe_rxIn (o : Observation) (s : State) : (s.observe o).rxIn = s.rxIn := rfl
@[simp] theorem State.observe_txOut (o : Observation) (s : State) : (s.observe o).txOut = s.txOut := rfl
@[simp] theorem State.observe_txDraws (o : Observation) (s : State) : (s.observe o).txDraws = s.txDraws := rfl
@[simp] theorem State.observe_freeDraws (o : Observation) (s : State) : (s.observe o).freeDraws = s.freeDraws := rfl
@[simp] theorem State.observe_schedule (o : Observation) (s : State) : (s.observe o).schedule = s.schedule := rfl
@[simp] theorem State.observe_hostProgram (o : Observation) (s : State) : (s.observe o).hostProgram = s.hostProgram := rfl
@[simp] theorem State.observe_hostPos (o : Observation) (s : State) : (s.observe o).hostPos = s.hostPos := rfl
@[simp] theorem State.observe_observed (o : Observation) (s : State) : (s.observe o).observed = o :: s.observed := rfl

/-! ### State.startTimer -/

@[simp] theorem State.startTimer_arg0 (s : State) : (s.startTimer).arg0 = s.arg0 := rfl
@[simp] theorem State.startTimer_arg1 (s : State) : (s.startTimer).arg1 = s.arg1 := rfl
@[simp] theorem State.startTimer_arg2 (s : State) : (s.startTimer).arg2 = s.arg2 := rfl
@[simp] theorem State.startTimer_res0 (s : State) : (s.startTimer).res0 = s.res0 := rfl
@[simp] theorem State.startTimer_res1 (s : State) : (s.startTimer).res1 = s.res1 := rfl
@[simp] theorem State.startTimer_err (s : State) : (s.startTimer).err = s.err := rfl
@[simp] theorem State.startTimer_fatal (s : State) : (s.startTimer).fatal = s.fatal := rfl
@[simp] theorem State.startTimer_rxArmed (s : State) : (s.startTimer).rxArmed = s.rxArmed := rfl
@[simp] theorem State.startTimer_rxDone (s : State) : (s.startTimer).rxDone = s.rxDone := rfl
@[simp] theorem State.startTimer_acc (s : State) : (s.startTimer).acc = s.acc := rfl
@[simp] theorem State.startTimer_rxErr (s : State) : (s.startTimer).rxErr = s.rxErr := rfl
@[simp] theorem State.startTimer_rxState (s : State) : (s.startTimer).rxState = s.rxState := rfl
@[simp] theorem State.startTimer_rxLen (s : State) : (s.startTimer).rxLen = s.rxLen := rfl
@[simp] theorem State.startTimer_rxCrc (s : State) : (s.startTimer).rxCrc = s.rxCrc := rfl
@[simp] theorem State.startTimer_dmem (s : State) : (s.startTimer).dmem = s.dmem := rfl
@[simp] theorem State.startTimer_rxBuf (s : State) : (s.startTimer).rxBuf = s.rxBuf := rfl
@[simp] theorem State.startTimer_rxL (s : State) : (s.startTimer).rxL = s.rxL := rfl
@[simp] theorem State.startTimer_rxDst (s : State) : (s.startTimer).rxDst = s.rxDst := rfl
@[simp] theorem State.startTimer_rxTmo (s : State) : (s.startTimer).rxTmo = s.rxTmo := rfl
@[simp] theorem State.startTimer_rxTimer (s : State) : (s.startTimer).rxTimer = some s.rxTmo := rfl
@[simp] theorem State.startTimer_rxIn (s : State) : (s.startTimer).rxIn = s.rxIn := rfl
@[simp] theorem State.startTimer_txOut (s : State) : (s.startTimer).txOut = s.txOut := rfl
@[simp] theorem State.startTimer_txDraws (s : State) : (s.startTimer).txDraws = s.txDraws := rfl
@[simp] theorem State.startTimer_freeDraws (s : State) : (s.startTimer).freeDraws = s.freeDraws := rfl
@[simp] theorem State.startTimer_schedule (s : State) : (s.startTimer).schedule = s.schedule := rfl
@[simp] theorem State.startTimer_hostProgram (s : State) : (s.startTimer).hostProgram = s.hostProgram := rfl
@[simp] theorem State.startTimer_hostPos (s : State) : (s.startTimer).hostPos = s.hostPos := rfl
@[simp] theorem State.startTimer_observed (s : State) : (s.startTimer).observed = s.observed := rfl

/-! ### State.endReceive -/

@[simp] theorem State.endReceive_arg0 (e : ResultCode) (s : State) : (s.endReceive e).arg0 = s.arg0 := rfl
@[simp] theorem State.endReceive_arg1 (e : ResultCode) (s : State) : (s.endReceive e).arg1 = s.arg1 := rfl
@[simp] theorem State.endReceive_arg2 (e : ResultCode) (s : State) : (s.endReceive e).arg2 = s.arg2 := rfl
@[simp] theorem State.endReceive_res0 (e : ResultCode) (s : State) : (s.endReceive e).res0 = s.res0 := rfl
@[simp] theorem State.endReceive_res1 (e : ResultCode) (s : State) : (s.endReceive e).res1 = s.res1 := rfl
@[simp] theorem State.endReceive_err (e : ResultCode) (s : State) : (s.endReceive e).err = s.err := rfl
@[simp] theorem State.endReceive_fatal (e : ResultCode) (s : State) : (s.endReceive e).fatal = s.fatal := rfl
@[simp] theorem State.endReceive_rxArmed (e : ResultCode) (s : State) : (s.endReceive e).rxArmed = false := rfl
@[simp] theorem State.endReceive_rxDone (e : ResultCode) (s : State) : (s.endReceive e).rxDone = true := rfl
@[simp] theorem State.endReceive_acc (e : ResultCode) (s : State) : (s.endReceive e).acc = s.acc := rfl
@[simp] theorem State.endReceive_rxErr (e : ResultCode) (s : State) : (s.endReceive e).rxErr = e := rfl
@[simp] theorem State.endReceive_rxState (e : ResultCode) (s : State) : (s.endReceive e).rxState = .idle := rfl
@[simp] theorem State.endReceive_rxLen (e : ResultCode) (s : State) : (s.endReceive e).rxLen = s.rxLen := rfl
@[simp] theorem State.endReceive_rxCrc (e : ResultCode) (s : State) : (s.endReceive e).rxCrc = s.rxCrc := rfl
@[simp] theorem State.endReceive_dmem (e : ResultCode) (s : State) : (s.endReceive e).dmem = s.dmem := rfl
@[simp] theorem State.endReceive_rxBuf (e : ResultCode) (s : State) : (s.endReceive e).rxBuf = [] := rfl
@[simp] theorem State.endReceive_rxL (e : ResultCode) (s : State) : (s.endReceive e).rxL = s.rxL := rfl
@[simp] theorem State.endReceive_rxDst (e : ResultCode) (s : State) : (s.endReceive e).rxDst = s.rxDst := rfl
@[simp] theorem State.endReceive_rxTmo (e : ResultCode) (s : State) : (s.endReceive e).rxTmo = s.rxTmo := rfl
@[simp] theorem State.endReceive_rxTimer (e : ResultCode) (s : State) : (s.endReceive e).rxTimer = none := rfl
@[simp] theorem State.endReceive_rxIn (e : ResultCode) (s : State) : (s.endReceive e).rxIn = s.rxIn := rfl
@[simp] theorem State.endReceive_txOut (e : ResultCode) (s : State) : (s.endReceive e).txOut = s.txOut := rfl
@[simp] theorem State.endReceive_txDraws (e : ResultCode) (s : State) : (s.endReceive e).txDraws = s.txDraws := rfl
@[simp] theorem State.endReceive_freeDraws (e : ResultCode) (s : State) : (s.endReceive e).freeDraws = s.freeDraws := rfl
@[simp] theorem State.endReceive_schedule (e : ResultCode) (s : State) : (s.endReceive e).schedule = s.schedule := rfl
@[simp] theorem State.endReceive_hostProgram (e : ResultCode) (s : State) : (s.endReceive e).hostProgram = s.hostProgram := rfl
@[simp] theorem State.endReceive_hostPos (e : ResultCode) (s : State) : (s.endReceive e).hostPos = s.hostPos := rfl
@[simp] theorem State.endReceive_observed (e : ResultCode) (s : State) : (s.endReceive e).observed = s.observed := rfl

/-! ### State.deliver -/

@[simp] theorem State.deliver_arg0 (s : State) (bytes : List Byte) : (s.deliver bytes).arg0 = s.arg0 := rfl
@[simp] theorem State.deliver_arg1 (s : State) (bytes : List Byte) : (s.deliver bytes).arg1 = s.arg1 := rfl
@[simp] theorem State.deliver_arg2 (s : State) (bytes : List Byte) : (s.deliver bytes).arg2 = s.arg2 := rfl
@[simp] theorem State.deliver_res0 (s : State) (bytes : List Byte) : (s.deliver bytes).res0 = s.res0 := rfl
@[simp] theorem State.deliver_res1 (s : State) (bytes : List Byte) : (s.deliver bytes).res1 = BitVec.ofNat 32 bytes.length := rfl
@[simp] theorem State.deliver_err (s : State) (bytes : List Byte) : (s.deliver bytes).err = .ok := rfl
@[simp] theorem State.deliver_fatal (s : State) (bytes : List Byte) : (s.deliver bytes).fatal = s.fatal := rfl
@[simp] theorem State.deliver_rxArmed (s : State) (bytes : List Byte) : (s.deliver bytes).rxArmed = s.rxArmed := rfl
@[simp] theorem State.deliver_rxDone (s : State) (bytes : List Byte) : (s.deliver bytes).rxDone = s.rxDone := rfl
@[simp] theorem State.deliver_acc (s : State) (bytes : List Byte) : (s.deliver bytes).acc = s.acc := rfl
@[simp] theorem State.deliver_rxErr (s : State) (bytes : List Byte) : (s.deliver bytes).rxErr = s.rxErr := rfl
@[simp] theorem State.deliver_rxState (s : State) (bytes : List Byte) : (s.deliver bytes).rxState = s.rxState := rfl
@[simp] theorem State.deliver_rxLen (s : State) (bytes : List Byte) : (s.deliver bytes).rxLen = s.rxLen := rfl
@[simp] theorem State.deliver_rxCrc (s : State) (bytes : List Byte) : (s.deliver bytes).rxCrc = s.rxCrc := rfl
@[simp] theorem State.deliver_dmem (s : State) (bytes : List Byte) : (s.deliver bytes).dmem = s.dmem.writeBytes (dstOperand s) bytes := rfl
@[simp] theorem State.deliver_rxBuf (s : State) (bytes : List Byte) : (s.deliver bytes).rxBuf = s.rxBuf := rfl
@[simp] theorem State.deliver_rxL (s : State) (bytes : List Byte) : (s.deliver bytes).rxL = s.rxL := rfl
@[simp] theorem State.deliver_rxDst (s : State) (bytes : List Byte) : (s.deliver bytes).rxDst = s.rxDst := rfl
@[simp] theorem State.deliver_rxTmo (s : State) (bytes : List Byte) : (s.deliver bytes).rxTmo = s.rxTmo := rfl
@[simp] theorem State.deliver_rxTimer (s : State) (bytes : List Byte) : (s.deliver bytes).rxTimer = s.rxTimer := rfl
@[simp] theorem State.deliver_rxIn (s : State) (bytes : List Byte) : (s.deliver bytes).rxIn = s.rxIn := rfl
@[simp] theorem State.deliver_txOut (s : State) (bytes : List Byte) : (s.deliver bytes).txOut = s.txOut := rfl
@[simp] theorem State.deliver_txDraws (s : State) (bytes : List Byte) : (s.deliver bytes).txDraws = s.txDraws := rfl
@[simp] theorem State.deliver_freeDraws (s : State) (bytes : List Byte) : (s.deliver bytes).freeDraws = s.freeDraws := rfl
@[simp] theorem State.deliver_schedule (s : State) (bytes : List Byte) : (s.deliver bytes).schedule = s.schedule := rfl
@[simp] theorem State.deliver_hostProgram (s : State) (bytes : List Byte) : (s.deliver bytes).hostProgram = s.hostProgram := rfl
@[simp] theorem State.deliver_hostPos (s : State) (bytes : List Byte) : (s.deliver bytes).hostPos = s.hostPos := rfl
@[simp] theorem State.deliver_observed (s : State) (bytes : List Byte) : (s.deliver bytes).observed = s.observed := rfl

/-! ### State.report -/

@[simp] theorem State.report_arg0 (s : State) (r0 r1 : Nat) : (s.report r0 r1).arg0 = s.arg0 := rfl
@[simp] theorem State.report_arg1 (s : State) (r0 r1 : Nat) : (s.report r0 r1).arg1 = s.arg1 := rfl
@[simp] theorem State.report_arg2 (s : State) (r0 r1 : Nat) : (s.report r0 r1).arg2 = s.arg2 := rfl
@[simp] theorem State.report_res0 (s : State) (r0 r1 : Nat) : (s.report r0 r1).res0 = BitVec.ofNat 32 r0 := rfl
@[simp] theorem State.report_res1 (s : State) (r0 r1 : Nat) : (s.report r0 r1).res1 = BitVec.ofNat 32 r1 := rfl
@[simp] theorem State.report_err (s : State) (r0 r1 : Nat) : (s.report r0 r1).err = .ok := rfl
@[simp] theorem State.report_fatal (s : State) (r0 r1 : Nat) : (s.report r0 r1).fatal = s.fatal := rfl
@[simp] theorem State.report_rxArmed (s : State) (r0 r1 : Nat) : (s.report r0 r1).rxArmed = s.rxArmed := rfl
@[simp] theorem State.report_rxDone (s : State) (r0 r1 : Nat) : (s.report r0 r1).rxDone = s.rxDone := rfl
@[simp] theorem State.report_acc (s : State) (r0 r1 : Nat) : (s.report r0 r1).acc = s.acc := rfl
@[simp] theorem State.report_rxErr (s : State) (r0 r1 : Nat) : (s.report r0 r1).rxErr = s.rxErr := rfl
@[simp] theorem State.report_rxState (s : State) (r0 r1 : Nat) : (s.report r0 r1).rxState = s.rxState := rfl
@[simp] theorem State.report_rxLen (s : State) (r0 r1 : Nat) : (s.report r0 r1).rxLen = s.rxLen := rfl
@[simp] theorem State.report_rxCrc (s : State) (r0 r1 : Nat) : (s.report r0 r1).rxCrc = s.rxCrc := rfl
@[simp] theorem State.report_dmem (s : State) (r0 r1 : Nat) : (s.report r0 r1).dmem = s.dmem := rfl
@[simp] theorem State.report_rxBuf (s : State) (r0 r1 : Nat) : (s.report r0 r1).rxBuf = s.rxBuf := rfl
@[simp] theorem State.report_rxL (s : State) (r0 r1 : Nat) : (s.report r0 r1).rxL = s.rxL := rfl
@[simp] theorem State.report_rxDst (s : State) (r0 r1 : Nat) : (s.report r0 r1).rxDst = s.rxDst := rfl
@[simp] theorem State.report_rxTmo (s : State) (r0 r1 : Nat) : (s.report r0 r1).rxTmo = s.rxTmo := rfl
@[simp] theorem State.report_rxTimer (s : State) (r0 r1 : Nat) : (s.report r0 r1).rxTimer = s.rxTimer := rfl
@[simp] theorem State.report_rxIn (s : State) (r0 r1 : Nat) : (s.report r0 r1).rxIn = s.rxIn := rfl
@[simp] theorem State.report_txOut (s : State) (r0 r1 : Nat) : (s.report r0 r1).txOut = s.txOut := rfl
@[simp] theorem State.report_txDraws (s : State) (r0 r1 : Nat) : (s.report r0 r1).txDraws = s.txDraws := rfl
@[simp] theorem State.report_freeDraws (s : State) (r0 r1 : Nat) : (s.report r0 r1).freeDraws = s.freeDraws := rfl
@[simp] theorem State.report_schedule (s : State) (r0 r1 : Nat) : (s.report r0 r1).schedule = s.schedule := rfl
@[simp] theorem State.report_hostProgram (s : State) (r0 r1 : Nat) : (s.report r0 r1).hostProgram = s.hostProgram := rfl
@[simp] theorem State.report_hostPos (s : State) (r0 r1 : Nat) : (s.report r0 r1).hostPos = s.hostPos := rfl
@[simp] theorem State.report_observed (s : State) (r0 r1 : Nat) : (s.report r0 r1).observed = s.observed := rfl

/-! ### State.sent -/

@[simp] theorem State.sent_arg0 (s : State) (d : List Byte) : (s.sent d).arg0 = s.arg0 := rfl
@[simp] theorem State.sent_arg1 (s : State) (d : List Byte) : (s.sent d).arg1 = s.arg1 := rfl
@[simp] theorem State.sent_arg2 (s : State) (d : List Byte) : (s.sent d).arg2 = s.arg2 := rfl
@[simp] theorem State.sent_res0 (s : State) (d : List Byte) : (s.sent d).res0 = s.res0 := rfl
@[simp] theorem State.sent_res1 (s : State) (d : List Byte) : (s.sent d).res1 = s.arg1 := rfl
@[simp] theorem State.sent_err (s : State) (d : List Byte) : (s.sent d).err = .ok := rfl
@[simp] theorem State.sent_fatal (s : State) (d : List Byte) : (s.sent d).fatal = s.fatal := rfl
@[simp] theorem State.sent_rxArmed (s : State) (d : List Byte) : (s.sent d).rxArmed = s.rxArmed := rfl
@[simp] theorem State.sent_rxDone (s : State) (d : List Byte) : (s.sent d).rxDone = s.rxDone := rfl
@[simp] theorem State.sent_acc (s : State) (d : List Byte) : (s.sent d).acc = s.acc := rfl
@[simp] theorem State.sent_rxErr (s : State) (d : List Byte) : (s.sent d).rxErr = s.rxErr := rfl
@[simp] theorem State.sent_rxState (s : State) (d : List Byte) : (s.sent d).rxState = s.rxState := rfl
@[simp] theorem State.sent_rxLen (s : State) (d : List Byte) : (s.sent d).rxLen = s.rxLen := rfl
@[simp] theorem State.sent_rxCrc (s : State) (d : List Byte) : (s.sent d).rxCrc = s.rxCrc := rfl
@[simp] theorem State.sent_dmem (s : State) (d : List Byte) : (s.sent d).dmem = s.dmem := rfl
@[simp] theorem State.sent_rxBuf (s : State) (d : List Byte) : (s.sent d).rxBuf = s.rxBuf := rfl
@[simp] theorem State.sent_rxL (s : State) (d : List Byte) : (s.sent d).rxL = s.rxL := rfl
@[simp] theorem State.sent_rxDst (s : State) (d : List Byte) : (s.sent d).rxDst = s.rxDst := rfl
@[simp] theorem State.sent_rxTmo (s : State) (d : List Byte) : (s.sent d).rxTmo = s.rxTmo := rfl
@[simp] theorem State.sent_rxTimer (s : State) (d : List Byte) : (s.sent d).rxTimer = s.rxTimer := rfl
@[simp] theorem State.sent_rxIn (s : State) (d : List Byte) : (s.sent d).rxIn = s.rxIn := rfl
@[simp] theorem State.sent_txOut (s : State) (d : List Byte) : (s.sent d).txOut = s.txOut ++ d := rfl
@[simp] theorem State.sent_txDraws (s : State) (d : List Byte) : (s.sent d).txDraws = s.txDraws := rfl
@[simp] theorem State.sent_freeDraws (s : State) (d : List Byte) : (s.sent d).freeDraws = s.freeDraws := rfl
@[simp] theorem State.sent_schedule (s : State) (d : List Byte) : (s.sent d).schedule = s.schedule := rfl
@[simp] theorem State.sent_hostProgram (s : State) (d : List Byte) : (s.sent d).hostProgram = s.hostProgram := rfl
@[simp] theorem State.sent_hostPos (s : State) (d : List Byte) : (s.sent d).hostPos = s.hostPos := rfl
@[simp] theorem State.sent_observed (s : State) (d : List Byte) : (s.sent d).observed = s.observed := rfl

/-! ### State.sendFailed -/

@[simp] theorem State.sendFailed_arg0 (s : State) (taken : List Byte) : (s.sendFailed taken).arg0 = s.arg0 := rfl
@[simp] theorem State.sendFailed_arg1 (s : State) (taken : List Byte) : (s.sendFailed taken).arg1 = s.arg1 := rfl
@[simp] theorem State.sendFailed_arg2 (s : State) (taken : List Byte) : (s.sendFailed taken).arg2 = s.arg2 := rfl
@[simp] theorem State.sendFailed_res0 (s : State) (taken : List Byte) : (s.sendFailed taken).res0 = s.res0 := rfl
@[simp] theorem State.sendFailed_res1 (s : State) (taken : List Byte) : (s.sendFailed taken).res1 = s.res1 := rfl
@[simp] theorem State.sendFailed_err (s : State) (taken : List Byte) : (s.sendFailed taken).err = .ioFailure := rfl
@[simp] theorem State.sendFailed_fatal (s : State) (taken : List Byte) : (s.sendFailed taken).fatal = true := rfl
@[simp] theorem State.sendFailed_rxArmed (s : State) (taken : List Byte) : (s.sendFailed taken).rxArmed = s.rxArmed := rfl
@[simp] theorem State.sendFailed_rxDone (s : State) (taken : List Byte) : (s.sendFailed taken).rxDone = s.rxDone := rfl
@[simp] theorem State.sendFailed_acc (s : State) (taken : List Byte) : (s.sendFailed taken).acc = s.acc := rfl
@[simp] theorem State.sendFailed_rxErr (s : State) (taken : List Byte) : (s.sendFailed taken).rxErr = s.rxErr := rfl
@[simp] theorem State.sendFailed_rxState (s : State) (taken : List Byte) : (s.sendFailed taken).rxState = s.rxState := rfl
@[simp] theorem State.sendFailed_rxLen (s : State) (taken : List Byte) : (s.sendFailed taken).rxLen = s.rxLen := rfl
@[simp] theorem State.sendFailed_rxCrc (s : State) (taken : List Byte) : (s.sendFailed taken).rxCrc = s.rxCrc := rfl
@[simp] theorem State.sendFailed_dmem (s : State) (taken : List Byte) : (s.sendFailed taken).dmem = s.dmem := rfl
@[simp] theorem State.sendFailed_rxBuf (s : State) (taken : List Byte) : (s.sendFailed taken).rxBuf = s.rxBuf := rfl
@[simp] theorem State.sendFailed_rxL (s : State) (taken : List Byte) : (s.sendFailed taken).rxL = s.rxL := rfl
@[simp] theorem State.sendFailed_rxDst (s : State) (taken : List Byte) : (s.sendFailed taken).rxDst = s.rxDst := rfl
@[simp] theorem State.sendFailed_rxTmo (s : State) (taken : List Byte) : (s.sendFailed taken).rxTmo = s.rxTmo := rfl
@[simp] theorem State.sendFailed_rxTimer (s : State) (taken : List Byte) : (s.sendFailed taken).rxTimer = s.rxTimer := rfl
@[simp] theorem State.sendFailed_rxIn (s : State) (taken : List Byte) : (s.sendFailed taken).rxIn = s.rxIn := rfl
@[simp] theorem State.sendFailed_txOut (s : State) (taken : List Byte) : (s.sendFailed taken).txOut = s.txOut ++ taken := rfl
@[simp] theorem State.sendFailed_txDraws (s : State) (taken : List Byte) : (s.sendFailed taken).txDraws = s.txDraws := rfl
@[simp] theorem State.sendFailed_freeDraws (s : State) (taken : List Byte) : (s.sendFailed taken).freeDraws = s.freeDraws := rfl
@[simp] theorem State.sendFailed_schedule (s : State) (taken : List Byte) : (s.sendFailed taken).schedule = s.schedule := rfl
@[simp] theorem State.sendFailed_hostProgram (s : State) (taken : List Byte) : (s.sendFailed taken).hostProgram = s.hostProgram := rfl
@[simp] theorem State.sendFailed_hostPos (s : State) (taken : List Byte) : (s.sendFailed taken).hostPos = s.hostPos := rfl
@[simp] theorem State.sendFailed_observed (s : State) (taken : List Byte) : (s.sendFailed taken).observed = s.observed := rfl

/-! ### State.arm -/

@[simp] theorem State.arm_arg0 (s : State) : (s.arm).arg0 = s.arg0 := rfl
@[simp] theorem State.arm_arg1 (s : State) : (s.arm).arg1 = s.arg1 := rfl
@[simp] theorem State.arm_arg2 (s : State) : (s.arm).arg2 = s.arg2 := rfl
@[simp] theorem State.arm_res0 (s : State) : (s.arm).res0 = s.res0 := rfl
@[simp] theorem State.arm_res1 (s : State) : (s.arm).res1 = s.res1 := rfl
@[simp] theorem State.arm_err (s : State) : (s.arm).err = .ok := rfl
@[simp] theorem State.arm_fatal (s : State) : (s.arm).fatal = s.fatal := rfl
@[simp] theorem State.arm_rxArmed (s : State) : (s.arm).rxArmed = true := rfl
@[simp] theorem State.arm_rxDone (s : State) : (s.arm).rxDone = false := rfl
@[simp] theorem State.arm_acc (s : State) : (s.arm).acc = s.acc := rfl
@[simp] theorem State.arm_rxErr (s : State) : (s.arm).rxErr = s.rxErr := rfl
@[simp] theorem State.arm_rxState (s : State) : (s.arm).rxState = .waitStart := rfl
@[simp] theorem State.arm_rxLen (s : State) : (s.arm).rxLen = s.rxLen := rfl
@[simp] theorem State.arm_rxCrc (s : State) : (s.arm).rxCrc = s.rxCrc := rfl
@[simp] theorem State.arm_dmem (s : State) : (s.arm).dmem = s.dmem := rfl
@[simp] theorem State.arm_rxBuf (s : State) : (s.arm).rxBuf = [] := rfl
@[simp] theorem State.arm_rxL (s : State) : (s.arm).rxL = s.rxL := rfl
@[simp] theorem State.arm_rxDst (s : State) : (s.arm).rxDst = s.arg2 := rfl
@[simp] theorem State.arm_rxTmo (s : State) : (s.arm).rxTmo = s.arg0 := rfl
@[simp] theorem State.arm_rxTimer (s : State) : (s.arm).rxTimer = some s.arg0 := rfl
@[simp] theorem State.arm_rxIn (s : State) : (s.arm).rxIn = s.rxIn := rfl
@[simp] theorem State.arm_txOut (s : State) : (s.arm).txOut = s.txOut := rfl
@[simp] theorem State.arm_txDraws (s : State) : (s.arm).txDraws = s.txDraws := rfl
@[simp] theorem State.arm_freeDraws (s : State) : (s.arm).freeDraws = s.freeDraws := rfl
@[simp] theorem State.arm_schedule (s : State) : (s.arm).schedule = s.schedule := rfl
@[simp] theorem State.arm_hostProgram (s : State) : (s.arm).hostProgram = s.hostProgram := rfl
@[simp] theorem State.arm_hostPos (s : State) : (s.arm).hostPos = s.hostPos := rfl
@[simp] theorem State.arm_observed (s : State) : (s.arm).observed = s.observed := rfl

/-! ### State.deliverPayload -/

@[simp] theorem State.deliverPayload_arg0 (s : State) (payload : List Byte) (L : Nat) (rx : Half) : (s.deliverPayload payload L rx).arg0 = s.arg0 := rfl
@[simp] theorem State.deliverPayload_arg1 (s : State) (payload : List Byte) (L : Nat) (rx : Half) : (s.deliverPayload payload L rx).arg1 = s.arg1 := rfl
@[simp] theorem State.deliverPayload_arg2 (s : State) (payload : List Byte) (L : Nat) (rx : Half) : (s.deliverPayload payload L rx).arg2 = s.arg2 := rfl
@[simp] theorem State.deliverPayload_res0 (s : State) (payload : List Byte) (L : Nat) (rx : Half) : (s.deliverPayload payload L rx).res0 = s.res0 := rfl
@[simp] theorem State.deliverPayload_res1 (s : State) (payload : List Byte) (L : Nat) (rx : Half) : (s.deliverPayload payload L rx).res1 = s.res1 := rfl
@[simp] theorem State.deliverPayload_err (s : State) (payload : List Byte) (L : Nat) (rx : Half) : (s.deliverPayload payload L rx).err = s.err := rfl
@[simp] theorem State.deliverPayload_fatal (s : State) (payload : List Byte) (L : Nat) (rx : Half) : (s.deliverPayload payload L rx).fatal = s.fatal := rfl
@[simp] theorem State.deliverPayload_rxArmed (s : State) (payload : List Byte) (L : Nat) (rx : Half) : (s.deliverPayload payload L rx).rxArmed = s.rxArmed := rfl
@[simp] theorem State.deliverPayload_rxDone (s : State) (payload : List Byte) (L : Nat) (rx : Half) : (s.deliverPayload payload L rx).rxDone = s.rxDone := rfl
@[simp] theorem State.deliverPayload_acc (s : State) (payload : List Byte) (L : Nat) (rx : Half) : (s.deliverPayload payload L rx).acc = s.acc := rfl
@[simp] theorem State.deliverPayload_rxErr (s : State) (payload : List Byte) (L : Nat) (rx : Half) : (s.deliverPayload payload L rx).rxErr = s.rxErr := rfl
@[simp] theorem State.deliverPayload_rxState (s : State) (payload : List Byte) (L : Nat) (rx : Half) : (s.deliverPayload payload L rx).rxState = s.rxState := rfl
@[simp] theorem State.deliverPayload_rxLen (s : State) (payload : List Byte) (L : Nat) (rx : Half) : (s.deliverPayload payload L rx).rxLen = BitVec.ofNat 11 L := rfl
@[simp] theorem State.deliverPayload_rxCrc (s : State) (payload : List Byte) (L : Nat) (rx : Half) : (s.deliverPayload payload L rx).rxCrc = rx := rfl
@[simp] theorem State.deliverPayload_dmem (s : State) (payload : List Byte) (L : Nat) (rx : Half) : (s.deliverPayload payload L rx).dmem = s.dmem.writeBytes s.rxDst.toNat payload := rfl
@[simp] theorem State.deliverPayload_rxBuf (s : State) (payload : List Byte) (L : Nat) (rx : Half) : (s.deliverPayload payload L rx).rxBuf = s.rxBuf := rfl
@[simp] theorem State.deliverPayload_rxL (s : State) (payload : List Byte) (L : Nat) (rx : Half) : (s.deliverPayload payload L rx).rxL = s.rxL := rfl
@[simp] theorem State.deliverPayload_rxDst (s : State) (payload : List Byte) (L : Nat) (rx : Half) : (s.deliverPayload payload L rx).rxDst = s.rxDst := rfl
@[simp] theorem State.deliverPayload_rxTmo (s : State) (payload : List Byte) (L : Nat) (rx : Half) : (s.deliverPayload payload L rx).rxTmo = s.rxTmo := rfl
@[simp] theorem State.deliverPayload_rxTimer (s : State) (payload : List Byte) (L : Nat) (rx : Half) : (s.deliverPayload payload L rx).rxTimer = s.rxTimer := rfl
@[simp] theorem State.deliverPayload_rxIn (s : State) (payload : List Byte) (L : Nat) (rx : Half) : (s.deliverPayload payload L rx).rxIn = s.rxIn := rfl
@[simp] theorem State.deliverPayload_txOut (s : State) (payload : List Byte) (L : Nat) (rx : Half) : (s.deliverPayload payload L rx).txOut = s.txOut := rfl
@[simp] theorem State.deliverPayload_txDraws (s : State) (payload : List Byte) (L : Nat) (rx : Half) : (s.deliverPayload payload L rx).txDraws = s.txDraws := rfl
@[simp] theorem State.deliverPayload_freeDraws (s : State) (payload : List Byte) (L : Nat) (rx : Half) : (s.deliverPayload payload L rx).freeDraws = s.freeDraws := rfl
@[simp] theorem State.deliverPayload_schedule (s : State) (payload : List Byte) (L : Nat) (rx : Half) : (s.deliverPayload payload L rx).schedule = s.schedule := rfl
@[simp] theorem State.deliverPayload_hostProgram (s : State) (payload : List Byte) (L : Nat) (rx : Half) : (s.deliverPayload payload L rx).hostProgram = s.hostProgram := rfl
@[simp] theorem State.deliverPayload_hostPos (s : State) (payload : List Byte) (L : Nat) (rx : Half) : (s.deliverPayload payload L rx).hostPos = s.hostPos := rfl
@[simp] theorem State.deliverPayload_observed (s : State) (payload : List Byte) (L : Nat) (rx : Half) : (s.deliverPayload payload L rx).observed = s.observed := rfl

/-! ### State.assertReset -/

@[simp] theorem State.assertReset_arg0 (s : State) : (s.assertReset).arg0 = State.reset.arg0 := rfl
@[simp] theorem State.assertReset_arg1 (s : State) : (s.assertReset).arg1 = State.reset.arg1 := rfl
@[simp] theorem State.assertReset_arg2 (s : State) : (s.assertReset).arg2 = State.reset.arg2 := rfl
@[simp] theorem State.assertReset_res0 (s : State) : (s.assertReset).res0 = State.reset.res0 := rfl
@[simp] theorem State.assertReset_res1 (s : State) : (s.assertReset).res1 = State.reset.res1 := rfl
@[simp] theorem State.assertReset_err (s : State) : (s.assertReset).err = State.reset.err := rfl
@[simp] theorem State.assertReset_fatal (s : State) : (s.assertReset).fatal = State.reset.fatal := rfl
@[simp] theorem State.assertReset_rxArmed (s : State) : (s.assertReset).rxArmed = State.reset.rxArmed := rfl
@[simp] theorem State.assertReset_rxDone (s : State) : (s.assertReset).rxDone = State.reset.rxDone := rfl
@[simp] theorem State.assertReset_acc (s : State) : (s.assertReset).acc = State.reset.acc := rfl
@[simp] theorem State.assertReset_rxErr (s : State) : (s.assertReset).rxErr = State.reset.rxErr := rfl
@[simp] theorem State.assertReset_rxState (s : State) : (s.assertReset).rxState = State.reset.rxState := rfl
@[simp] theorem State.assertReset_rxLen (s : State) : (s.assertReset).rxLen = State.reset.rxLen := rfl
@[simp] theorem State.assertReset_rxCrc (s : State) : (s.assertReset).rxCrc = State.reset.rxCrc := rfl
@[simp] theorem State.assertReset_dmem (s : State) : (s.assertReset).dmem = s.dmem := rfl
@[simp] theorem State.assertReset_rxBuf (s : State) : (s.assertReset).rxBuf = State.reset.rxBuf := rfl
@[simp] theorem State.assertReset_rxL (s : State) : (s.assertReset).rxL = State.reset.rxL := rfl
@[simp] theorem State.assertReset_rxDst (s : State) : (s.assertReset).rxDst = State.reset.rxDst := rfl
@[simp] theorem State.assertReset_rxTmo (s : State) : (s.assertReset).rxTmo = State.reset.rxTmo := rfl
@[simp] theorem State.assertReset_rxTimer (s : State) : (s.assertReset).rxTimer = State.reset.rxTimer := rfl
@[simp] theorem State.assertReset_rxIn (s : State) : (s.assertReset).rxIn = s.rxIn := rfl
@[simp] theorem State.assertReset_txOut (s : State) : (s.assertReset).txOut = s.txOut := rfl
@[simp] theorem State.assertReset_txDraws (s : State) : (s.assertReset).txDraws = s.txDraws := rfl
@[simp] theorem State.assertReset_freeDraws (s : State) : (s.assertReset).freeDraws = s.freeDraws := rfl
@[simp] theorem State.assertReset_schedule (s : State) : (s.assertReset).schedule = s.schedule := rfl
@[simp] theorem State.assertReset_hostProgram (s : State) : (s.assertReset).hostProgram = s.hostProgram := rfl
@[simp] theorem State.assertReset_hostPos (s : State) : (s.assertReset).hostPos = s.hostPos := rfl
@[simp] theorem State.assertReset_observed (s : State) : (s.assertReset).observed = s.observed := rfl

/-! ### State.dropDraw -/

@[simp] theorem State.dropDraw_arg0 (s : State) : s.dropDraw.arg0 = s.arg0 := by
  unfold State.dropDraw; split <;> rfl
@[simp] theorem State.dropDraw_arg1 (s : State) : s.dropDraw.arg1 = s.arg1 := by
  unfold State.dropDraw; split <;> rfl
@[simp] theorem State.dropDraw_arg2 (s : State) : s.dropDraw.arg2 = s.arg2 := by
  unfold State.dropDraw; split <;> rfl
@[simp] theorem State.dropDraw_res0 (s : State) : s.dropDraw.res0 = s.res0 := by
  unfold State.dropDraw; split <;> rfl
@[simp] theorem State.dropDraw_res1 (s : State) : s.dropDraw.res1 = s.res1 := by
  unfold State.dropDraw; split <;> rfl
@[simp] theorem State.dropDraw_err (s : State) : s.dropDraw.err = s.err := by
  unfold State.dropDraw; split <;> rfl
@[simp] theorem State.dropDraw_fatal (s : State) : s.dropDraw.fatal = s.fatal := by
  unfold State.dropDraw; split <;> rfl
@[simp] theorem State.dropDraw_rxArmed (s : State) : s.dropDraw.rxArmed = s.rxArmed := by
  unfold State.dropDraw; split <;> rfl
@[simp] theorem State.dropDraw_rxDone (s : State) : s.dropDraw.rxDone = s.rxDone := by
  unfold State.dropDraw; split <;> rfl
@[simp] theorem State.dropDraw_acc (s : State) : s.dropDraw.acc = s.acc := by
  unfold State.dropDraw; split <;> rfl
@[simp] theorem State.dropDraw_rxErr (s : State) : s.dropDraw.rxErr = s.rxErr := by
  unfold State.dropDraw; split <;> rfl
@[simp] theorem State.dropDraw_rxState (s : State) : s.dropDraw.rxState = s.rxState := by
  unfold State.dropDraw; split <;> rfl
@[simp] theorem State.dropDraw_rxLen (s : State) : s.dropDraw.rxLen = s.rxLen := by
  unfold State.dropDraw; split <;> rfl
@[simp] theorem State.dropDraw_rxCrc (s : State) : s.dropDraw.rxCrc = s.rxCrc := by
  unfold State.dropDraw; split <;> rfl
@[simp] theorem State.dropDraw_dmem (s : State) : s.dropDraw.dmem = s.dmem := by
  unfold State.dropDraw; split <;> rfl
@[simp] theorem State.dropDraw_rxBuf (s : State) : s.dropDraw.rxBuf = s.rxBuf := by
  unfold State.dropDraw; split <;> rfl
@[simp] theorem State.dropDraw_rxL (s : State) : s.dropDraw.rxL = s.rxL := by
  unfold State.dropDraw; split <;> rfl
@[simp] theorem State.dropDraw_rxDst (s : State) : s.dropDraw.rxDst = s.rxDst := by
  unfold State.dropDraw; split <;> rfl
@[simp] theorem State.dropDraw_rxTmo (s : State) : s.dropDraw.rxTmo = s.rxTmo := by
  unfold State.dropDraw; split <;> rfl
@[simp] theorem State.dropDraw_rxTimer (s : State) : s.dropDraw.rxTimer = s.rxTimer := by
  unfold State.dropDraw; split <;> rfl
@[simp] theorem State.dropDraw_rxIn (s : State) : s.dropDraw.rxIn = s.rxIn := by
  unfold State.dropDraw; split <;> rfl
@[simp] theorem State.dropDraw_txOut (s : State) : s.dropDraw.txOut = s.txOut := by
  unfold State.dropDraw; split <;> rfl
@[simp] theorem State.dropDraw_schedule (s : State) : s.dropDraw.schedule = s.schedule := by
  unfold State.dropDraw; split <;> rfl
@[simp] theorem State.dropDraw_hostProgram (s : State) : s.dropDraw.hostProgram = s.hostProgram := by
  unfold State.dropDraw; split <;> rfl
@[simp] theorem State.dropDraw_hostPos (s : State) : s.dropDraw.hostPos = s.hostPos := by
  unfold State.dropDraw; split <;> rfl
@[simp] theorem State.dropDraw_observed (s : State) : s.dropDraw.observed = s.observed := by
  unfold State.dropDraw; split <;> rfl


end Sys2Proof.Machine
end

