-- ==== Sys2Proof/Laws/Exec.lean ====
section
/-! SUPPORT. What a command can do, said once: the codes it can raise and, when it answers a next state, one of five
effects. -/

namespace Sys2Proof.Machine

/-- A computation raises no code outside `codes`. -/
def raisesWithin {α : Type} (codes : List ResultCode) (x : Except Stop α) : Prop :=
  ∀ e, x = .error (.raise e) → e ∈ codes

theorem raisesWithin_bind {α β : Type} {codes : List ResultCode} {x : Except Stop α} {f : α → Except Stop β}
    (hx : raisesWithin codes x) (hf : ∀ a, raisesWithin codes (f a)) : raisesWithin codes (x >>= f) := by
  intro e h
  rcases (bind_eq_error _ _ _).1 h with h | ⟨a, _, h⟩
  · exact hx e h
  · exact hf a e h

theorem raisesWithin_ok {α : Type} {codes : List ResultCode} (a : α) : raisesWithin codes (.ok a : Except Stop α) := by
  intro e h; cases h

theorem raisesWithin_raise {α : Type} {codes : List ResultCode} {e : ResultCode} (he : e ∈ codes) :
    raisesWithin codes (raise e : Except Stop α) := by intro e' h; cases h; exact he

theorem raisesWithin_raiseIf {codes : List ResultCode} {c : Bool} {e : ResultCode} (he : e ∈ codes) :
    raisesWithin codes (raiseIf c e) := by
  intro e' h; rw [raiseIf_eq_error] at h; cases h.2; exact he

theorem raisesWithin_useAll {codes : List ResultCode} (x : List (Option Byte)) : raisesWithin codes (useAll x) := by
  intro e h; rw [useAll_eq_error] at h; exact absurd h.2 (by simp)

theorem raisesWithin_useByte {codes : List ResultCode} (x : Option Byte) : raisesWithin codes (useByte x) := by
  intro e h; rw [useByte_eq_error] at h; exact absurd h.2 (by simp)

theorem raisesWithin_decodeUvarintFrom (v i : Nat) (x : List (Option Byte)) :
    raisesWithin commandCodes (decodeUvarintFrom v i x) := by
  induction x generalizing v i with
  | nil => exact raisesWithin_raise (by decide)
  | cons b x ih =>
    unfold decodeUvarintFrom
    split
    · exact raisesWithin_raise (by decide)
    · refine raisesWithin_bind (raisesWithin_useByte _) fun a => ?_
      dsimp only
      split
      · exact ih _ _
      · split
        · exact raisesWithin_raise (by decide)
        · exact raisesWithin_ok _

theorem raisesWithin_decodeBytes (x : List (Option Byte)) : raisesWithin commandCodes (decodeBytes x) :=
  raisesWithin_bind (raisesWithin_decodeUvarintFrom _ _ _) fun _ =>
    raisesWithin_bind (raisesWithin_raiseIf (by decide)) fun _ => raisesWithin_ok _

theorem raisesWithin_decodeString (x : List (Option Byte)) : raisesWithin commandCodes (decodeString x) :=
  raisesWithin_bind (raisesWithin_decodeBytes _) fun _ => raisesWithin_bind (raisesWithin_useAll _) fun _ =>
    raisesWithin_bind (raisesWithin_raiseIf (by decide)) fun _ => raisesWithin_ok _

theorem raisesWithin_parse (x : List (Option Byte)) : raisesWithin commandCodes (parse x) := by
  unfold parse
  iterate 16
    first
    | exact raisesWithin_ok _
    | refine raisesWithin_bind (raisesWithin_raiseIf (by decide)) fun _ => ?_
    | refine raisesWithin_bind (raisesWithin_useAll _) fun _ => ?_
    | refine raisesWithin_bind (raisesWithin_useByte _) fun _ => ?_

theorem length_of_useAll_readBytes {m : Memory} {a n : Nat} {d : List Byte} (h : useAll (m.readBytes a n) = .ok d) :
    d.length = n := by
  rw [useAll_eq_ok] at h; simpa using (congrArg List.length h).symm

/-- Everything a command can do when it answers a next state. -/
inductive ExecEffect (i : Instr) (s t : State) : Prop where
  | raised (e : ResultCode) (he : e ∈ commandCodes) (ht : t = s.raised e)
  | registers (a : Half) (r0 r1 : Word) (ha : a ≠ s.acc → i = .crcInit ∨ i = .crcByte)
      (ht : t = { s with acc := a, res0 := r0, res1 := r1, err := .ok })
  | stored (r0 r1 : Word) (addr : Nat) (d : List Byte)
      (hi : i ∈ [Instr.varintEnc, .bytesEnc, .stringEnc, .frameBuild]) (hr : addr + d.length ≤ 4096)
      (ht : t = { s with dmem := s.dmem.writeBytes addr d, res0 := r0, res1 := r1, err := .ok })
  | sent (out : List Byte) (r1 : Word) (f : Bool) (ds : List TxDraw) (k : Nat) (e : ResultCode)
      (hi : i = .txSend) (hf : s.fatal = false) (hfe : (f = false ∧ e = .ok) ∨ (f = true ∧ e = .ioFailure))
      (ht : t = { s with txOut := s.txOut ++ out, res1 := r1, fatal := f, txDraws := ds, freeDraws := k, err := e })
  | armed (hi : i = .rxStart) (hf : s.fatal = false) (ha : s.rxArmed = false) (hr : dstOperand s + 1024 ≤ 4096)
      (ht : t = s.arm)

theorem effect_of_issue {i : Instr} {s t : State} {body : Except Stop State} (h : issue s body = .next t)
    (hc : raisesWithin commandCodes body) (hb : s.rxArmed = false → body = .ok t → ExecEffect i s t) :
        ExecEffect i s t := by
  rcases issue_eq_next h with ⟨_, rfl⟩ | ⟨ha, h | ⟨e, he, rfl⟩⟩
  · exact .raised .busy (by decide) rfl
  · exact hb ha h
  · exact .raised e (hc e he) rfl

theorem frameBody_length (p : List Byte) : (frameBody p).length = 3 + p.length := by simp [frameBody, le16]; omega

theorem frame_length (p : List Byte) : (frame p).length = 7 + p.length := by
  simp [frame, frameBody_length, le16]; omega

theorem exec_effect {i : Instr} {s t : State} (h : exec i s = .next t) : ExecEffect i s t := by
  have hrange : ∀ a n, raisesWithin commandCodes (checkRange a n) := fun _ _ => raisesWithin_raiseIf (by decide)
  cases i
  case nop =>
    refine effect_of_issue h (raisesWithin_ok _) fun _ hx => ?_
    injection hx with hx; exact .registers s.acc s.res0 s.res1 (absurd rfl) hx.symm
  case crcInit =>
    refine effect_of_issue h (raisesWithin_ok _) fun _ hx => ?_
    injection hx with hx; exact .registers _ s.res0 s.res1 (fun _ => .inl rfl) hx.symm
  case crcByte =>
    refine effect_of_issue h (raisesWithin_ok _) fun _ hx => ?_
    injection hx with hx; exact .registers _ s.res0 s.res1 (fun _ => .inr rfl) hx.symm
  case crcFinal =>
    refine effect_of_issue h (raisesWithin_ok _) fun _ hx => ?_
    injection hx with hx; exact .registers s.acc _ s.res1 (absurd rfl) hx.symm
  case crcBlock =>
    refine effect_of_issue h (raisesWithin_bind (hrange _ _) fun _ =>
        raisesWithin_bind (raisesWithin_useAll _) fun _ => raisesWithin_ok _) fun _ hx => ?_
    simp only [bind_eq_ok, pure_ok, Except.ok.injEq] at hx
    obtain ⟨_, _, d, _, hx⟩ := hx
    exact .registers s.acc _ s.res1 (absurd rfl) hx.symm
  case varintDec =>
    refine effect_of_issue h (raisesWithin_bind (hrange _ _) fun _ =>
        raisesWithin_bind (raisesWithin_decodeUvarintFrom _ _ _) fun _ => raisesWithin_ok _) fun _ hx => ?_
    simp only [bind_eq_ok, pure_ok, Except.ok.injEq] at hx
    obtain ⟨_, _, d, _, hx⟩ := hx
    exact .registers s.acc _ _ (absurd rfl) hx.symm
  case bytesDec =>
    refine effect_of_issue h (raisesWithin_bind (hrange _ _) fun _ =>
        raisesWithin_bind (raisesWithin_decodeBytes _) fun _ => raisesWithin_ok _) fun _ hx => ?_
    simp only [bind_eq_ok, pure_ok, Except.ok.injEq] at hx
    obtain ⟨_, _, d, _, hx⟩ := hx
    exact .registers s.acc _ _ (absurd rfl) hx.symm
  case stringDec =>
    refine effect_of_issue h (raisesWithin_bind (hrange _ _) fun _ =>
        raisesWithin_bind (raisesWithin_decodeString _) fun _ => raisesWithin_ok _) fun _ hx => ?_
    simp only [bind_eq_ok, pure_ok, Except.ok.injEq] at hx
    obtain ⟨_, _, d, _, hx⟩ := hx
    exact .registers s.acc _ _ (absurd rfl) hx.symm
  case frameParse =>
    refine effect_of_issue h (raisesWithin_bind (hrange _ _) fun _ =>
        raisesWithin_bind (raisesWithin_parse _) fun _ => raisesWithin_ok _) fun _ hx => ?_
    simp only [bind_eq_ok, pure_ok, Except.ok.injEq] at hx
    obtain ⟨_, _, d, _, hx⟩ := hx
    exact .registers s.acc _ _ (absurd rfl) hx.symm
  case varintEnc =>
    refine effect_of_issue h (raisesWithin_bind (hrange _ _) fun _ => raisesWithin_ok _) fun _ hx => ?_
    simp only [bind_eq_ok, pure_ok, Except.ok.injEq, checkRange_eq_ok] at hx
    obtain ⟨_, hr, hx⟩ := hx
    exact .stored s.res0 _ _ _ (by simp) hr hx.symm
  case bytesEnc =>
    refine effect_of_issue h (raisesWithin_bind (raisesWithin_bind (hrange _ _) fun _ =>
        raisesWithin_bind (hrange _ _) fun _ => raisesWithin_useAll _) fun _ => raisesWithin_ok _) fun _ hx => ?_
    simp only [sourceForPrefixing, bind_eq_ok, pure_ok, Except.ok.injEq, checkRange_eq_ok] at hx
    obtain ⟨d, ⟨_, _, _, hr, hd⟩, hx⟩ := hx
    exact .stored s.res0 _ _ _ (by simp) (by rw [List.length_append, length_of_useAll_readBytes hd]; exact hr) hx.symm
  case stringEnc =>
    refine effect_of_issue h (raisesWithin_bind (raisesWithin_bind (hrange _ _) fun _ =>
        raisesWithin_bind (hrange _ _) fun _ => raisesWithin_useAll _) fun _ =>
            raisesWithin_bind (raisesWithin_raiseIf (by decide)) fun _ => raisesWithin_ok _) fun _ hx => ?_
    simp only [sourceForPrefixing, bind_eq_ok, pure_ok, Except.ok.injEq, checkRange_eq_ok] at hx
    obtain ⟨d, ⟨_, _, _, hr, hd⟩, _, _, hx⟩ := hx
    exact .stored s.res0 _ _ _ (by simp) (by rw [List.length_append, length_of_useAll_readBytes hd]; exact hr) hx.symm
  case frameBuild =>
    refine effect_of_issue h (raisesWithin_bind (hrange _ _) fun _ => raisesWithin_bind (hrange _ _) fun _ =>
        raisesWithin_bind (raisesWithin_raiseIf (by decide)) fun _ =>
            raisesWithin_bind (raisesWithin_useAll _) fun _ => raisesWithin_ok _) fun _ hx => ?_
    simp only [bind_eq_ok, pure_ok, Except.ok.injEq, checkRange_eq_ok] at hx
    obtain ⟨_, _, _, hr, _, _, d, hd, hx⟩ := hx
    exact .stored _ _ _ _ (by simp) (by rw [frame_length, length_of_useAll_readBytes hd]; exact hr) hx.symm
  case rxStart =>
    refine effect_of_issue h (raisesWithin_bind (raisesWithin_raiseIf (by decide)) fun _ =>
        raisesWithin_bind (hrange _ _) fun _ => raisesWithin_ok _) fun ha hx => ?_
    simp only [bind_eq_ok, channelUsable, raiseIf_eq_ok, pure_ok, Except.ok.injEq, checkRange_eq_ok] at hx
    obtain ⟨_, hf, _, hr, hx⟩ := hx
    exact .armed rfl hf ha hr hx.symm
  case txSend =>
    refine effect_of_issue h (raisesWithin_bind (raisesWithin_raiseIf (by decide)) fun _ =>
        raisesWithin_bind (hrange _ _) fun _ => ?_) fun _ hx => ?_
    · split
      · exact raisesWithin_ok _
      · unfold transmit; split <;> exact raisesWithin_bind (raisesWithin_useAll _) fun _ => raisesWithin_ok _
    · simp only [bind_eq_ok, channelUsable, raiseIf_eq_ok, checkRange_eq_ok] at hx
      obtain ⟨_, hf, _, _, hx⟩ := hx
      have hd : s.dropDraw = { s with txDraws := s.dropDraw.txDraws, freeDraws := s.dropDraw.freeDraws } := by
        unfold State.dropDraw; split <;> rfl
      split at hx
      · injection hx with hx
        exact .sent [] s.arg1 s.fatal s.txDraws s.freeDraws .ok rfl hf (.inl ⟨hf, rfl⟩) hx.symm
      · unfold transmit at hx
        split at hx
        · simp only [bind_eq_ok, pure_ok, Except.ok.injEq] at hx
          obtain ⟨d, _, hx⟩ := hx
          refine .sent d s.arg1 s.fatal s.dropDraw.txDraws s.dropDraw.freeDraws .ok rfl hf (.inl ⟨hf, rfl⟩) ?_
          rw [← hx, hd]; rfl
        · simp only [bind_eq_ok, pure_ok, Except.ok.injEq] at hx
          obtain ⟨d, _, hx⟩ := hx
          refine .sent d s.res1 true s.dropDraw.txDraws s.dropDraw.freeDraws .ioFailure rfl hf (.inr ⟨rfl, rfl⟩) ?_
          rw [← hx, hd]; rfl

end Sys2Proof.Machine
end

