-- ==== Sys2Proof/Laws/PerInstr.lean ====
section
/-! SUPPORT. Facts made per command, one lemma per constructor. The family `Encoding`: a command is well formed, the
encoder leaves bits 31:8 zero (30_encoding.md R70), and the opcode map has exactly one row for it (R72). -/

namespace Sys2Proof.Laws

/-- The encoding of a command: OPC in bits 7:0, nothing above, and one row of the opcode map. -/
def Encoding.Statement (i : Instr) : Prop :=
  i.wellFormed = true ∧ (encode i).toNat < 256 ∧ (opcodeTable.filter (fun row => row.instr == i)).length = 1

theorem Encoding.nop : Encoding.Statement .nop := by unfold Encoding.Statement; decide
theorem Encoding.crcInit : Encoding.Statement .crcInit := by unfold Encoding.Statement; decide
theorem Encoding.crcByte : Encoding.Statement .crcByte := by unfold Encoding.Statement; decide
theorem Encoding.crcFinal : Encoding.Statement .crcFinal := by unfold Encoding.Statement; decide
theorem Encoding.crcBlock : Encoding.Statement .crcBlock := by unfold Encoding.Statement; decide
theorem Encoding.varintEnc : Encoding.Statement .varintEnc := by unfold Encoding.Statement; decide
theorem Encoding.varintDec : Encoding.Statement .varintDec := by unfold Encoding.Statement; decide
theorem Encoding.bytesEnc : Encoding.Statement .bytesEnc := by unfold Encoding.Statement; decide
theorem Encoding.bytesDec : Encoding.Statement .bytesDec := by unfold Encoding.Statement; decide
theorem Encoding.stringEnc : Encoding.Statement .stringEnc := by unfold Encoding.Statement; decide
theorem Encoding.stringDec : Encoding.Statement .stringDec := by unfold Encoding.Statement; decide
theorem Encoding.frameBuild : Encoding.Statement .frameBuild := by unfold Encoding.Statement; decide
theorem Encoding.frameParse : Encoding.Statement .frameParse := by unfold Encoding.Statement; decide
theorem Encoding.txSend : Encoding.Statement .txSend := by unfold Encoding.Statement; decide
theorem Encoding.rxStart : Encoding.Statement .rxStart := by unfold Encoding.Statement; decide

end Sys2Proof.Laws
end

