-- ==== Sys2Proof/Laws/Step.lean ====
section
/-! SUPPORT. What a host action, an event of the receive machine and a step can do, said once. -/

namespace Sys2Proof.Machine

/-- Everything a host action can do when it answers a next state. -/
inductive HostEffect (act : HostAction) (s t : State) : Prop where
  | looked (pos : Nat) (seen : List Observation) (ht : t = { s with hostPos := pos, observed := seen })
  | storedByte (off : Nat) (b : Byte) (ha : act = .access (.wr8 off b)) (hr : 0x1000 ≤ off ∧ off < 0x2000)
      (ht : t = { s with dmem := s.dmem.write (off - 0x1000) b })
  | wroteReg (off : Nat) (w : Word) (r : HostReg) (ha : act = .access (.wr32 off w)) (hr : regAt off = some r)
      (hc : r ≠ .cmd) (ht : t = s.writeReg w r)
  | issued (w : Word) (i : Instr) (ha : act = .access (.wr32 0 w)) (hd : decode w = .ok i) (ht : exec i s = .next t)
  | illegal (e : ResultCode) (he : e ∈ commandCodes) (ht : t = s.raised e)
  | wasReset (ha : act = .reset) (ht : t = s.assertReset)

theorem regOffset_of_regAt {off : Nat} {r : HostReg} (h : regAt off = some r) : regOffset r = off := by
  simpa using List.find?_some h

theorem hostAct_effect {act : HostAction} {s t : State} (h : hostAct s act = .next t) : HostEffect act s t := by
  have branch : ∀ r bit want target, hostBranch r bit want target s = .next t → HostEffect act s t := by
    intro r bit want target h
    unfold hostBranch at h
    split at h
    · split at h
      · injection h with h; exact .looked target s.observed h.symm
      · injection h with h; exact .looked s.hostPos s.observed h.symm
    · cases h
  cases act with
  | reset => injection h with h; exact .wasReset rfl h.symm
  | b target => injection h with h; exact .looked target s.observed h.symm
  | bz r bit target => exact branch r bit false target h
  | bnz r bit target => exact branch r bit true target h
  | access a =>
    simp only [hostAct, hostAccess] at h
    split at h
    swap
    · cases h
    rename_i hw
    cases a with
    | rd16 off => cases h
    | wr16 off d => cases h
    | rd8 off =>
      simp only [answerAccess, readDmem] at h
      split at h
      · injection h with h; exact .looked s.hostPos _ h.symm
      · cases h
    | rd32 off => injection h with h; exact .looked s.hostPos _ h.symm
    | wr8 off d => injection h with h; exact .storedByte off d rfl (by simpa [HostAccess.wellFormed] using hw) h.symm
    | wr32 off w =>
      simp only [answerAccess, writeOffset] at h
      split at h
      · rename_i hr
        have h0 : 0 = off := regOffset_of_regAt hr
        subst h0
        unfold issueCommand at h
        split at h
        · rename_i i hd; exact .issued w i rfl hd h
        · rcases issue_eq_next h with ⟨_, ht⟩ | ⟨_, ht | ⟨e, he, ht⟩⟩
          · exact .illegal .busy (by decide) ht
          · cases ht
          · injection he with he; injection he with he; subst he; exact .illegal _ (by decide) ht
      · rename_i r hc hr
        injection h with h; exact .wroteReg off w r rfl hr hc h.symm
      · injection h with h; exact .looked s.hostPos s.observed h.symm

/-- Everything an event of the receive machine can do when it answers a next state. -/
inductive ReceiveEffect (e : Turn) (s t : State) : Prop where
  | collected (rest buf : List Byte) (st : RxState) (L : Half) (timer : Option Word)
      (ht : t = { s with rxIn := rest, rxBuf := buf, rxState := st, rxL := L, rxTimer := timer })
  | ended (rest : List Byte) (f : Bool) (code : ResultCode) (hf : f = s.fatal ∨ (e = .rxIoFail ∧ f = true))
      (ht : t = { s with rxIn := rest, fatal := f }.endReceive code)
  | delivered (rest p : List Byte) (L : Nat) (rx : Half) (he : e = .rxByte) (hs : s.rxState = .body)
      (ht : t = ({ s with rxIn := rest }.deliverPayload p L rx).endReceive .ok)

theorem receive_effect {e : Turn} {s t : State} (he : isRxEvent e) (h : takeTurn e s = .next t) : ReceiveEffect
    e s t := by
  rcases he with rfl | rfl | rfl
  · simp only [takeTurn, rxByteEvent] at h
    split at h
    swap
    · cases h
    rename_i b rest ha hr
    simp only [takeRxByte] at h
    split at h
    · cases h
    · simp only [rxByteWaitStart] at h
      split at h
      · injection h with h; exact .collected rest [b] .header s.rxL _ h.symm
      · injection h with h; exact .ended rest s.fatal _ (.inl rfl) h.symm
    · simp only [rxByteHeader] at h
      split at h
      · split at h
        · injection h with h; exact .ended rest s.fatal _ (.inl rfl) h.symm
        · injection h with h; exact .collected rest _ .body _ _ h.symm
      · injection h with h; exact .collected rest _ s.rxState s.rxL s.rxTimer h.symm
    · rename_i hs
      simp only [rxByteBody] at h
      split at h
      · unfold finishFrame at h
        split at h
        · injection h with h; exact .delivered rest _ _ _ rfl hs h.symm
        · injection h with h; exact .ended rest s.fatal _ (.inl rfl) h.symm
        · cases h
      · injection h with h; exact .collected rest _ s.rxState s.rxL s.rxTimer h.symm
  · simp only [takeTurn, rxExpireEvent] at h
    split at h
    · split at h
      · injection h with h; exact .ended s.rxIn s.fatal _ (.inl rfl) h.symm
      · injection h with h; exact .ended s.rxIn s.fatal _ (.inl rfl) h.symm
    · cases h
  · simp only [takeTurn, rxIoFailEvent] at h
    split at h
    · injection h with h; exact .ended s.rxIn true _ (.inr ⟨rfl, rfl⟩) h.symm
    · cases h

/-- Everything a step can be when it answers a next state: the turn at the head of the schedule, taken. -/
inductive StepEffect (s t : State) : Prop where
  | host (rest : List Turn) (act : HostAction) (hs : s.schedule = .host :: rest)
      (hp : s.hostProgram[s.hostPos]? = some act)
      (he : HostEffect act { s with schedule := rest, hostPos := s.hostPos + 1 } t)
  | receive (rest : List Turn) (e : Turn) (hs : s.schedule = e :: rest) (hr : isRxEvent e)
      (ht : takeTurn e { s with schedule := rest } = .next t) (he : ReceiveEffect e { s with schedule := rest } t)
  | platform (rest : List Turn) (hs : s.schedule = .platformReset :: rest)
      (ht : t = { s with schedule := rest }.assertReset)

theorem step_effect {s t : State} (h : step s = .next t) : StepEffect s t := by
  simp only [step, nextTurn] at h
  split at h
  swap
  · cases h
  rename_i e rest hs
  cases e with
  | host =>
    simp only [takeTurn, hostTurn] at h
    split at h
    · rename_i act hp; exact .host rest act hs hp (hostAct_effect h)
    · cases h
  | rxByte => exact .receive rest _ hs (.inl rfl) h (receive_effect (.inl rfl) h)
  | rxExpire => exact .receive rest _ hs (.inr (.inl rfl)) h (receive_effect (.inr (.inl rfl)) h)
  | rxIoFail => exact .receive rest _ hs (.inr (.inr rfl)) h (receive_effect (.inr (.inr rfl)) h)
  | platformReset => injection h with h; exact .platform rest hs h.symm

end Sys2Proof.Machine
end

