-- ==== Sys2Proof/Machine/Assembler.lean ====
section
/-! DEFINITION. The assembler (30_encoding.md R76 to R78): lines to host actions. A label stands for the position
of the action after it. -/

namespace Sys2Proof.Machine

/-- `wr REG, imm` as a host access (R76). -/
def wrReg (r : HostReg) (w : Word) : HostAction := .access (.wr32 (regOffset r) w)

/-- `rd REG` as a host access (R76). -/
def rdReg (r : HostReg) : HostAction := .access (.rd32 (regOffset r))

/-- `wb a, b0, b1, ...`: one 8-bit write a byte, at host offset 0x1000 + address (R76). -/
def wbActions : Nat → List Byte → List HostAction
  | _, [] => []
  | a, b :: bs => .access (.wr8 (0x1000 + a) b) :: wbActions (a + 1) bs

/-- `rb a, n`: n 8-bit reads (R76). -/
def rbActions : Nat → Nat → List HostAction
  | _, 0 => []
  | a, n + 1 => .access (.rd8 (0x1000 + a)) :: rbActions (a + 1) n

/-- The expansion of a pseudo-instruction that stands at position `pos` (R77): the ARG writes in the order ARG0,
ARG1, ARG2, then the CMD write. `rx.wait` polls STATUS bit 10 with a label of its own, the position of its read. -/
def expandPseudo (pos : Nat) : Pseudo → List HostAction
  | .nop => [wrReg .cmd 0x00#32]
  | .crcInit => [wrReg .cmd 0x01#32]
  | .crcByte b => [wrReg .arg0 b, wrReg .cmd 0x02#32]
  | .crcFinal => [wrReg .cmd 0x03#32]
  | .crcBlock src n => [wrReg .arg0 src, wrReg .arg1 n, wrReg .cmd 0x04#32]
  | .varintEnc v dst => [wrReg .arg0 v, wrReg .arg2 dst, wrReg .cmd 0x10#32]
  | .varintDec src avail => [wrReg .arg0 src, wrReg .arg1 avail, wrReg .cmd 0x11#32]
  | .bytesEnc src n dst => [wrReg .arg0 src, wrReg .arg1 n, wrReg .arg2 dst, wrReg .cmd 0x12#32]
  | .bytesDec src avail => [wrReg .arg0 src, wrReg .arg1 avail, wrReg .cmd 0x13#32]
  | .strEnc src n dst => [wrReg .arg0 src, wrReg .arg1 n, wrReg .arg2 dst, wrReg .cmd 0x14#32]
  | .strDec src avail => [wrReg .arg0 src, wrReg .arg1 avail, wrReg .cmd 0x15#32]
  | .frameBuild src n dst => [wrReg .arg0 src, wrReg .arg1 n, wrReg .arg2 dst, wrReg .cmd 0x20#32]
  | .frameParse src n => [wrReg .arg0 src, wrReg .arg1 n, wrReg .cmd 0x21#32]
  | .txSend src n => [wrReg .arg0 src, wrReg .arg1 n, wrReg .cmd 0x30#32]
  | .rxStart dst tmo => [wrReg .arg0 tmo, wrReg .arg2 dst, wrReg .cmd 0x31#32]
  | .rxWait => [rdReg .status, .bz .status 10 pos]

/-- How many host actions a line becomes. -/
def lineSize : AsmLine → Nat
  | .wb _ data => data.length
  | .rb _ n => n
  | .label _ => 0
  | .pseudo p => (expandPseudo 0 p).length
  | _ => 1

/-- Each label with the position of the action after it. -/
def labelTable : Nat → List AsmLine → List (Label × Nat)
  | _, [] => []
  | pos, line :: rest =>
    match line with
    | .label l => (l, pos) :: labelTable pos rest
    | other => labelTable (pos + lineSize other) rest

/-- The host actions of a line at position `pos`; none for a branch to a label the program does not define. The
value of `rd REG -> v` states what a program expects and is no action (R76; log 16). -/
def assembleLine (labels : List (Label × Nat)) (pos : Nat) : AsmLine → Option (List HostAction)
  | .wr r imm => some [wrReg r imm]
  | .rd r _ => some [rdReg r]
  | .wb a data => some (wbActions a data)
  | .rb a n => some (rbActions a n)
  | .cmd opc => some [wrReg .cmd opc]
  | .pseudo p => some (expandPseudo pos p)
  | .label _ => some []
  | .reset => some [.reset]
  | .bz r bit l => (labels.lookup l).map (fun t => [.bz r bit t])
  | .bnz r bit l => (labels.lookup l).map (fun t => [.bnz r bit t])
  | .b l => (labels.lookup l).map (fun t => [.b t])

/-- The lines from position `pos` on, assembled one after another. -/
def assembleFrom (labels : List (Label × Nat)) : Nat → List AsmLine → Option (List HostAction)
  | _, [] => some []
  | pos, line :: rest =>
    match assembleLine labels pos line, assembleFrom labels (pos + lineSize line) rest with
    | some acts, some more => some (acts ++ more)
    | _, _ => none

/-- The host program of an assembler program; none if it is not well formed (log 16, log 21, log 22). -/
def assemble (lines : List AsmLine) : Option (List HostAction) :=
  if wellFormedAsm lines then assembleFrom (labelTable 0 lines) 0 lines else none

/-- A host program loaded into a state, to run from its first action (log 2); a read by an earlier program decides
no branch of this one (R78). -/
def State.loadProgram (p : List HostAction) (s : State) : State :=
  { s with hostProgram := p, hostPos := 0, observed := [] }

end Sys2Proof.Machine
end

