-- ==== Sys2Proof/Tests/Slice0.lean ====
section
/-! SUPPORT. The model's own tests: ill-formed terms refused, words of 30_encoding.md R72 decoded, the examples of the
commands' rules, and for every obligation with hypotheses a witness that meets them. Expected values are the spec's
(the rule is named at each test), worked out by hand from it where it prints none. -/

namespace Sys2Proof.Tests

open Sys2Proof.Machine

/-! ## Helpers -/

/-- A state after reset with operands and DMEM. -/
def ready (a0 a1 a2 : Word) (m : Memory) : State := { State.reset with arg0 := a0, arg1 := a1, arg2 := a2, dmem := m }

/-- DMEM with bytes from an address on. -/
def bytesAt (a : Nat) (d : List Byte) : Memory := Memory.writeBytes [] a d

/-- An armed receive that waits for its first byte, RX_DST = 3072, RX_TMO = 9. -/
def waiting (input : List Byte) : State :=
  { State.reset with
    rxArmed := true, rxState := .waitStart, rxDst := 3072#32, rxTmo := 9#32, rxTimer := some 9#32, rxIn := input }

/-- The same receive in HEADER. -/
def inHeader (buf input : List Byte) : State := { waiting input with rxState := .header, rxBuf := buf }

/-- The same receive in BODY. -/
def inBody (L : Half) (buf input : List Byte) : State :=
  { waiting input with rxState := .body, rxBuf := buf, rxL := L }

/-- The host's turn at an action of its program. -/
def hostAt (act : HostAction) (s : State) : State := { s with schedule := [.host], hostProgram := [act], hostPos := 0 }

/-- The outcome is a next state with a property. -/
def goes (o : Host.Outcome State Fault Refusal) (p : State → Bool) : Bool :=
  match o with
  | .next t => p t
  | .fault _ => false
  | .refused _ => false

/-- The outcome is a fault. -/
def faults (o : Host.Outcome State Fault Refusal) : Bool :=
  match o with
  | .next _ => false
  | .fault _ => true
  | .refused _ => false

/-- The outcome is this refusal. -/
def refuses (r : Refusal) (o : Host.Outcome State Fault Refusal) : Bool :=
  match o with
  | .next _ => false
  | .fault _ => false
  | .refused r' => decide (r' = r)

/-- DMEM holds the bytes at an address. -/
def has (t : State) (a : Nat) (d : List Byte) : Bool := t.dmem.readBytes a d.length == d.map some

/-- The frame around the payload [0x01] (42_frame.md R163). -/
def frameOf1 : List Byte := [0xAA#8, 0x01#8, 0x01#8, 0x00#8, 0x01#8, 0x30#8, 0xAB#8, 0x55#8]

/-! ## Ill-formed terms are refused (20_memory.md R52, R53; 30_encoding.md R76, R78) -/

theorem test_rd8_below_window : (HostAccess.rd8 0xFFF).wellFormed = false := by decide
theorem test_rd8_above_window : (HostAccess.rd8 0x2000).wellFormed = false := by decide
theorem test_wr8_below_window : (HostAccess.wr8 0xFFF 0#8).wellFormed = false := by decide
theorem test_wr8_above_window : (HostAccess.wr8 0x2000 0#8).wellFormed = false := by decide
theorem test_rd16 : (HostAccess.rd16 0x1000).wellFormed = false := by decide
theorem test_wr16 : (HostAccess.wr16 0x000 0#16).wellFormed = false := by decide
theorem test_rd32_misaligned : (HostAccess.rd32 0x002).wellFormed = false := by decide
theorem test_rd32_dmem : (HostAccess.rd32 0x1000).wellFormed = false := by decide
theorem test_wr32_misaligned : (HostAccess.wr32 0x001 0#32).wellFormed = false := by decide
theorem test_wr32_dmem : (HostAccess.wr32 0x1000 0#32).wellFormed = false := by decide
theorem test_bz_bit : (HostAction.bz .status 32 0).wellFormed 1 = false := by decide
theorem test_bz_target : (HostAction.bz .status 10 2).wellFormed 1 = false := by decide
theorem test_bnz_bit : (HostAction.bnz .status 32 0).wellFormed 1 = false := by decide
theorem test_bnz_target : (HostAction.bnz .status 10 2).wellFormed 1 = false := by decide
theorem test_b_target : (HostAction.b 2).wellFormed 1 = false := by decide
theorem test_bad_access_in_program : wellFormedProgram [.reset, .access (.rd16 0)] = false := by decide
theorem test_wb_outside : (AsmLine.wb 0xFFF [0#8, 0#8]).wellFormed [] = false := by decide
theorem test_rb_outside : (AsmLine.rb 0xFFF 2).wellFormed [] = false := by decide
theorem test_bz_no_label : (AsmLine.bz .status 10 7).wellFormed [8] = false := by decide
theorem test_bz_line_bit : (AsmLine.bz .status 32 7).wellFormed [7] = false := by decide
theorem test_bnz_no_label : (AsmLine.bnz .status 10 7).wellFormed [8] = false := by decide
theorem test_bnz_line_bit : (AsmLine.bnz .status 32 7).wellFormed [7] = false := by decide
theorem test_b_no_label : (AsmLine.b 7).wellFormed [] = false := by decide
theorem test_label_twice : wellFormedAsm [.label 7, .label 7] = false := by decide
theorem test_ill_formed_not_assembled : assemble [.label 7, .label 7] = none := by decide

/-! ## Decoding (30_encoding.md R70 to R72, R75): each row's OPC, the ignored bits not zero -/

theorem test_decode_nop : decode 0xFFFFFF00#32 = .ok .nop := by decide
theorem test_decode_crcInit : decode 0xABCD0101#32 = .ok .crcInit := by decide
theorem test_decode_crcByte : decode 0x00000102#32 = .ok .crcByte := by decide
theorem test_decode_crcFinal : decode 0x00001003#32 = .ok .crcFinal := by decide
theorem test_decode_crcBlock : decode 0x00010004#32 = .ok .crcBlock := by decide
theorem test_decode_varintEnc : decode 0x00100010#32 = .ok .varintEnc := by decide
theorem test_decode_varintDec : decode 0x01000011#32 = .ok .varintDec := by decide
theorem test_decode_bytesEnc : decode 0x10000012#32 = .ok .bytesEnc := by decide
theorem test_decode_bytesDec : decode 0x00003113#32 = .ok .bytesDec := by decide
theorem test_decode_stringEnc : decode 0x00310014#32 = .ok .stringEnc := by decide
theorem test_decode_stringDec : decode 0x31000015#32 = .ok .stringDec := by decide
theorem test_decode_frameBuild : decode 0x80000020#32 = .ok .frameBuild := by decide
theorem test_decode_frameParse : decode 0x00008021#32 = .ok .frameParse := by decide
theorem test_decode_txSend : decode 0x00800030#32 = .ok .txSend := by decide
theorem test_decode_rxStart : decode 0x00000131#32 = .ok .rxStart := by decide
theorem test_decode_illegal : decode 0x00000005#32 = .error (.illegalOpc 0x05#8) := by decide
theorem test_decode_illegal_top : decode 0x000000FF#32 = .error (.illegalOpc 0xFF#8) := by decide
theorem test_table_word : decodeTableWord 32 0x21 = some .frameParse := by decide
theorem test_table_word_illegal : decodeTableWord 32 0x32 = none := by decide

/-! ## One step of each command -/

/-- 44_control.md R216. -/
theorem test_nop : goes (exec .nop { State.reset with err := .crcMismatch }) (fun t => t.err == .ok) := by decide

/-- 40_crc.md R115. -/
theorem test_crcInit : goes (exec .crcInit { State.reset with acc := 0x1234#16 }) (fun t => t.acc == 0xFFFF#16) := by
  decide

/-- 40_crc.md R116: 0x131 feeds the byte 0x31. -/
theorem test_crcByte : goes (exec .crcByte (ready 0x131#32 0#32 0#32 [])) (fun t => t.acc == 0xB1F4#16) := by decide +kernel

/-- 40_crc.md R116. -/
theorem test_crcByte_zero : goes (exec .crcByte (ready 0#32 0#32 0#32 [])) (fun t => t.acc == 0xE1F0#16) := by
  decide +kernel

/-- 40_crc.md R117. -/
theorem test_crcFinal :
    goes (exec .crcFinal { State.reset with acc := 0x89F6#16 })
      (fun t => t.res0 == 0x0000906E#32 && t.acc == 0x89F6#16) := by decide +kernel

/-- 40_crc.md R118. -/
theorem test_crcBlock :
    goes (exec .crcBlock (ready 0x100#32 9#32 0#32
        (bytesAt 0x100 [0x31#8, 0x32#8, 0x33#8, 0x34#8, 0x35#8, 0x36#8, 0x37#8, 0x38#8, 0x39#8])))
      (fun t => t.res0 == 0x0000906E#32 && t.acc == 0xFFFF#16) := by decide +kernel

/-- 40_crc.md R118: the sum does not wrap. -/
theorem test_crcBlock_range :
    goes (exec .crcBlock (ready 0xFFFFFFFF#32 1#32 0#32 [])) (fun t => t.err == .addressRange) := by decide

/-- 41_varint.md R136. -/
theorem test_varintEnc :
    goes (exec .varintEnc (ready 300#32 7#32 0x200#32 []))
      (fun t => has t 0x200 [0xAC#8, 0x02#8] && t.dmem.length == 2 && t.res1 == 2#32 && t.res0 == 0#32) := by decide

/-- 41_varint.md R136: the check uses the actual length. -/
theorem test_varintEnc_edge :
    goes (exec .varintEnc (ready 127#32 0#32 4095#32 [])) (fun t => has t 4095 [0x7F#8])
      && goes (exec .varintEnc (ready 128#32 0#32 4095#32 [])) (fun t => t.err == .addressRange && t.dmem == []) := by
  decide

/-- 41_varint.md R137. -/
theorem test_varintDec :
    goes (exec .varintDec (ready 0x200#32 3#32 0#32 (bytesAt 0x200 [0xAC#8, 0x02#8])))
      (fun t => t.res0 == 300#32 && t.res1 == 2#32) := by decide

/-- 41_varint.md R137: a fifth byte above 0x0F. -/
theorem test_varintDec_overflow :
    goes (exec .varintDec (ready 0#32 5#32 0#32 (bytesAt 0 [0x80#8, 0x80#8, 0x80#8, 0x80#8, 0x10#8])))
      (fun t => t.err == .malformedVarint && t.res1 == 0#32) := by decide

/-- 41_varint.md R138. -/
theorem test_bytesEnc :
    goes (exec .bytesEnc (ready 0x300#32 3#32 0x400#32 (bytesAt 0x300 [0x01#8, 0x02#8, 0x03#8])))
      (fun t => has t 0x400 [0x03#8, 0x01#8, 0x02#8, 0x03#8] && t.res1 == 4#32) := by decide

/-- 20_memory.md R59: an overlapping destination. -/
theorem test_bytesEnc_overlap :
    goes (exec .bytesEnc (ready 0x300#32 3#32 0x301#32 (bytesAt 0x300 [0x01#8, 0x02#8, 0x03#8])))
      (fun t => has t 0x300 [0x01#8, 0x03#8, 0x01#8, 0x02#8, 0x03#8]) := by decide

/-- 41_varint.md R139. -/
theorem test_bytesDec :
    goes (exec .bytesDec (ready 0x400#32 4#32 0#32 (bytesAt 0x400 [0x03#8])))
      (fun t => t.res0 == 3#32 && t.res1 == 4#32) := by decide

/-- 41_varint.md R139. -/
theorem test_bytesDec_short :
    goes (exec .bytesDec (ready 0x400#32 3#32 0#32 (bytesAt 0x400 [0x03#8, 0x01#8, 0x02#8])))
      (fun t => t.err == .insufficientPayload) := by decide

/-- 41_varint.md R140. -/
theorem test_stringEnc :
    goes (exec .stringEnc (ready 0x500#32 2#32 0x510#32 (bytesAt 0x500 [0x68#8, 0x69#8])))
      (fun t => has t 0x510 [0x02#8, 0x68#8, 0x69#8] && t.res1 == 3#32) := by decide

/-- 41_varint.md R140. -/
theorem test_stringEnc_invalid :
    goes (exec .stringEnc (ready 0#32 2#32 0x510#32 (bytesAt 0 [0xC3#8, 0x28#8])))
      (fun t => t.err == .invalidUtf8 && t.dmem.length == 2) := by decide

/-- 41_varint.md R141. -/
theorem test_stringDec :
    goes (exec .stringDec (ready 0x510#32 3#32 0#32 (bytesAt 0x510 [0x02#8, 0x68#8, 0x69#8])))
      (fun t => t.res0 == 2#32 && t.res1 == 3#32) := by decide

/-- 41_varint.md R141: a surrogate. -/
theorem test_stringDec_surrogate :
    goes (exec .stringDec (ready 0#32 4#32 0#32 (bytesAt 0 [0x03#8, 0xED#8, 0xA0#8, 0x80#8])))
      (fun t => t.err == .invalidUtf8) := by decide

/-- 42_frame.md R163. -/
theorem test_frameBuild :
    goes (exec .frameBuild (ready 0#32 1#32 0x100#32 (bytesAt 0 [0x01#8])))
      (fun t => has t 0x100 frameOf1 && t.res0 == 0xAB30#32 && t.res1 == 8#32) := by decide +kernel

/-- 42_frame.md R163. -/
theorem test_frameBuild_empty :
    goes (exec .frameBuild (ready 0#32 0#32 0x100#32 [])) (fun t => t.err == .lengthOutOfRange) := by decide

/-- 42_frame.md R166. -/
theorem test_frameParse :
    goes (exec .frameParse (ready 0x100#32 8#32 0#32 (bytesAt 0x100 frameOf1)))
      (fun t => t.res0 == 1#32 && t.res1 == 0xAB30#32) := by decide +kernel

/-- 42_frame.md R168: a longer buffer, the ignored byte 8 never written. -/
theorem test_frameParse_long :
    goes (exec .frameParse (ready 0#32 10#32 0#32 ((bytesAt 0 frameOf1).write 9 0x55#8)))
      (fun t => t.res0 == 1#32 && t.res1 == 0xAB30#32) := by decide +kernel

/-- 43_transport.md R180. -/
theorem test_txSend :
    goes (exec .txSend { ready 0#32 2#32 0#32 (bytesAt 0 [0x07#8, 0x08#8]) with txDraws := [.sent], txOut := [0x06#8] })
      (fun t => t.txOut == [0x06#8, 0x07#8, 0x08#8] && t.res1 == 2#32 && t.fatal == false) := by decide

/-- 43_transport.md R180: a partial write. -/
theorem test_txSend_partial :
    goes (exec .txSend { ready 0#32 2#32 0#32 (bytesAt 0 [0x07#8]) with txDraws := [.failed 1] })
      (fun t => t.txOut == [0x07#8] && t.res1 == 0#32 && t.fatal && t.err == .ioFailure) := by decide

/-- 43_transport.md R181. -/
theorem test_rxStart :
    goes (exec .rxStart (ready 1000#32 0#32 0x800#32 []))
      (fun t => t.rxState == .waitStart && t.rxArmed && t.rxDst == 0x800#32 && t.rxTimer == some 1000#32) := by decide

/-- 43_transport.md R181: 3073 has no room for 1024 bytes. -/
theorem test_rxStart_room :
    goes (exec .rxStart (ready 0#32 0#32 3073#32 [])) (fun t => t.err == .addressRange && !t.rxArmed) := by decide

/-! ## The receive machine, the host and reset -/

/-- 43_transport.md R185: the byte is consumed. -/
theorem test_rx_unexpected :
    goes (takeTurn .rxByte (waiting [0x55#8, 0xAA#8]))
      (fun t => t.rxErr == .unexpectedByte && t.rxIn == [0xAA#8] && t.rxDone && !t.rxArmed) := by decide

/-- 43_transport.md R186: 1025 is no legal length. -/
theorem test_rx_length :
    goes (takeTurn .rxByte (inHeader [0xAA#8, 0x01#8, 0x01#8] [0x04#8])) (fun t => t.rxErr == .lengthOutOfRange) := by
  decide

/-- 43_transport.md R187, R188. -/
theorem test_rx_ok :
    goes (takeTurn .rxByte (inBody 1#16 (frameOf1.take 7) [0x55#8]))
      (fun t => t.rxErr == .ok && has t 3072 [0x01#8] && t.rxLen == 1#11 && t.rxCrc == 0xAB30#16 && t.rxCnt == 0) := by
  decide +kernel

/-- 43_transport.md R191. -/
theorem test_rx_expire :
    goes (takeTurn .rxExpire (inHeader [0xAA#8] [])) (fun t => t.rxErr == .incomplete)
      && goes (takeTurn .rxExpire (waiting [])) (fun t => t.rxErr == .timeout) := by decide

/-- 43_transport.md R184: no receive armed. -/
theorem test_rx_not_enabled : refuses .eventNotEnabled (takeTurn .rxByte { State.reset with rxIn := [0xAA#8] }) := by
  decide

/-- 70_reset_and_hazards.md R251. -/
theorem test_unwritten : faults (hostAct State.reset (.access (.rd8 0x1000))) := by decide

/-- 70_reset_and_hazards.md R250: the receive ends without an outcome. -/
theorem test_reset :
    goes (hostAct (inHeader [0xAA#8] [0x01#8]) .reset)
      (fun t => t.rxStatusWord == 0#32 && t.statusWord == 0#32 && t.rxIn == [0x01#8] && t.rxTimer == none) := by decide

/-- A step from reset with a placed command runs it. -/
theorem test_withFetchWord :
    goes (step (State.reset.withFetchWord 32 0x10)) (fun t => has t 0 [0x00#8] && t.res1 == 1#32) := by decide

/-- From State.reset alone nothing runs (log 2). -/
theorem test_reset_runs_nothing : refuses .noTurn (step State.reset) := by decide

/-- 30_encoding.md R77, R78: `rx.wait` behind one write polls STATUS bit 10. -/
theorem test_assemble :
    assemble [.wr .arg0 5#32, .label 1, .pseudo .rxWait, .b 1] =
      some [.access (.wr32 0x004 5#32), .access (.rd32 0x018), .bz .status 10 1, .b 1] := by decide

/-- 30_encoding.md R96, R98: SetMode I2C is [0, 1]; Mode 20 is rejected (R102). -/
theorem test_message :
    encodeMessage (.setMode .i2c) = [0x00#8, 0x01#8] ∧ decodeMessage [0x00#8, 0x14#8] = .error .badMode ∧
      decodeMessage [0x01#8, 0x00#8] = .error .trailingBytes := by decide

/-! ## Witnesses: states and operands that meet an obligation's hypotheses -/

/-- Bytes at the start of DMEM fill a source range of their length. -/
theorem source_ready (d : List Byte) (dst : Word) (h : d.length < 2 ^ 32) :
    sourceIs (ready 0#32 (BitVec.ofNat 32 d.length) dst (bytesAt 0 d)) d := by
  refine ⟨?_, fun i hi => ?_⟩
  · simp only [countOperand, ready, BitVec.toNat_ofNat]; omega
  · exact Memory.read_writeBytes_inside d [] 0 i hi

/-- A receive that waits for its first byte is a safe state. -/
theorem safe_waiting (input : List Byte) : SafeState (waiting input) :=
  ⟨rfl, ⟨fun _ h => (by cases h), fun _ => rfl⟩, rfl, fun _ => (by decide : (3072#32).toNat + 1024 ≤ 4096), fun _ => rfl, rfl, Nat.zero_le _⟩

theorem safe_inHeader (buf input : List Byte) (h1 : 1 ≤ buf.length) (h2 : buf.length ≤ 3)
    (h3 : byteNat buf 0 = 0xAA) : SafeState (inHeader buf input) :=
  ⟨rfl, ⟨fun _ h => (by cases h), fun _ => rfl⟩, rfl, fun _ => (by decide : (3072#32).toNat + 1024 ≤ 4096), fun _ => rfl, ⟨h1, h2, h3⟩, Nat.zero_le _⟩

theorem safe_inBody (L : Half) (buf input : List Byte) (h1 : 4 ≤ buf.length) (h2 : buf.length ≤ 6 + L.toNat)
    (h3 : 1 ≤ L.toNat) (h4 : L.toNat ≤ 1024) (h5 : byteNat buf 0 = 0xAA) (h6 : declaredLength buf = L.toNat) :
    SafeState (inBody L buf input) :=
  ⟨rfl, ⟨fun _ h => (by cases h), fun _ => rfl⟩, rfl, fun _ => (by decide : (3072#32).toNat + 1024 ≤ 4096), fun _ => rfl, ⟨h1, h2, h3, h4, h5, h6⟩, Nat.zero_le _⟩

theorem safe_reset : SafeState State.reset := ⟨rfl, by decide, rfl, by decide, by decide, rfl, by decide⟩

theorem safe_lastByte : SafeState (inBody 1#16 (frameOf1.take 7) [0x55#8]) :=
  safe_inBody _ _ _ (by decide) (by decide) (by decide) (by decide) (by decide) (by decide)

/-- Not well-formed: 0xC0 is the first byte of no row (30_encoding.md R90). -/
theorem not_utf8 : ¬ wellFormedUtf8 [0xC0#8] := by
  rintro ⟨chars, h, hs⟩
  cases chars with
  | nil => simp at hs
  | cons c rest =>
    obtain ⟨row, hrow, hm⟩ := h c (by simp)
    cases hm with
    | cons h1 h2 =>
      simp only [List.flatten_cons, List.cons_append, List.cons.injEq] at hs
      rw [← hs.1] at h1
      clear h2; revert h1; revert row; decide

/-- Well-formed: two characters of the table's first row. -/
theorem hi_utf8 : wellFormedUtf8 [0x68#8, 0x69#8] :=
  ⟨[[0x68#8], [0x69#8]],
    by
      intro c hc
      simp only [List.mem_cons, List.not_mem_nil, or_false] at hc
      rcases hc with rfl | rfl <;> exact ⟨⟨⟨0x00#8, 0x7F#8⟩, []⟩, by decide, .cons (by decide) .nil⟩,
    rfl⟩

theorem witness_EncodeThenDecode :
    Instr.rxStart.wellFormed = true ∧ (0xFFFFFF31#32).setWidth 8 = (encode .rxStart).setWidth 8 := by decide

theorem witness_IllegalOpcodesRaise :
    State.reset.rxArmed = false ∧
      ∀ n ∈ [0x05, 0x0F, 0x16, 0x1F, 0x22, 0x2F, 0x32, 0xFFFFFFFF],
        illegalOpcs ((BitVec.ofNat 32 n).setWidth 8).toNat := by unfold illegalOpcs; decide

/-- A command, and an action that is none. -/
theorem witness_StepRunsTheDecodedCommand :
    (let s := hostAt (.access (.wr32 0x000 0x31#32)) State.reset
     Instr.rxStart.wellFormed = true ∧ s.schedule = .host :: [] ∧
       s.hostProgram[s.hostPos]? = some (.access (.wr32 0x000 0x31#32)) ∧ decode 0x31#32 = .ok .rxStart) ∧
    (let s := hostAt .reset State.reset
     s.schedule = .host :: [] ∧ s.hostProgram[s.hostPos]? = some .reset) := by decide

theorem witness_BusyIsPrecise :
    (waiting []).rxArmed = true ∧ (0 < 4096 ∧ 4095 < 4096) ∧
      Memory.read (({ waiting [] with dmem := bytesAt 4095 [0x07#8] } : State).dmem) 4095 = some 0x07#8 ∧
      0xFFC % 4 = 0 ∧ 0xFFC < 0x1000 := by decide

theorem witness_FatalBlocksOnlyTheChannel :
    ({ State.reset with fatal := true } : State).rxArmed = false ∧
      ({ State.reset with fatal := true } : State).fatal = true ∧ Instr.nop ≠ .txSend ∧ Instr.nop ≠ .rxStart := by decide

/-- 4097 bytes are one too many, clause by clause. -/
theorem witness_RangeChecksRaise :
    (let s := ready 4096#32 1#32 0#32 []; s.rxArmed = false ∧ s.fatal = false ∧ 4096 < srcOperand s + countOperand s) ∧
    (let s := ready 128#32 0#32 4095#32 []
     s.rxArmed = false ∧ 4096 < dstOperand s + vlen (valueOperand s).toNat) ∧
    (let s := ready 0#32 1#32 4095#32 []
     srcOperand s + countOperand s ≤ 4096 ∧ 4096 < dstOperand s + (vlen (countOperand s) + countOperand s)) ∧
    (let s := ready 0#32 1#32 4089#32 []
     srcOperand s + countOperand s ≤ 4096 ∧ 4096 < dstOperand s + (7 + countOperand s)) ∧
    (let s := ready 0#32 0#32 3073#32 []; s.fatal = false ∧ 3072 < dstOperand s) := by decide

theorem witness_ErrorsArePrecise :
    (∃ t, exec .crcBlock (ready 4096#32 1#32 0#32 []) = .next t ∧ t.err ≠ .ok) ∧
    ∃ t, exec .txSend { ready 0#32 1#32 0#32 [] with txDraws := [.failed 0] } = .next t ∧ t.err ≠ .ok :=
  ⟨⟨_, rfl, by decide⟩, ⟨_, rfl, by decide⟩⟩

theorem witness_EveryIssueEnds (a : Nat) (h : a < 4096) :
    ((bytesAt 0 (List.replicate 4096 0#8)).read a).isSome = true := by
  have := Memory.read_writeBytes_inside (List.replicate 4096 0#8) [] 0 a (by rw [List.length_replicate]; exact h)
  rw [Nat.zero_add, List.getElem?_replicate, if_pos h] at this
  rw [bytesAt, this]; rfl

/-- A buffer of 8 bytes in which only the byte at place k was never written. -/
def missingAt (k : Nat) : State :=
  ready 0#32 8#32 0#32 (Memory.writeBytes (bytesAt 0 (frameOf1.take k)) (k + 1) (frameOf1.drop (k + 1)))

/-- The byte after the first is missing; after four continuation bytes the fifth; the only data byte of a string. -/
theorem witness_UnwrittenSourceFaults :
    (let s := { ready 0#32 3#32 0#32 (bytesAt 0 [0x80#8]) with txDraws := [.failed 2] }
     s.rxArmed = false ∧ srcOperand s + countOperand s ≤ 4096 ∧ 1 < countOperand s ∧
       s.dmem.read (srcOperand s + 1) = none ∧
       dstOperand s + (vlen (countOperand s) + countOperand s) ≤ 4096 ∧
       dstOperand s + (7 + countOperand s) ≤ 4096 ∧ countOperand s ≤ 1024 ∧ s.fatal = false ∧
       s.txDraws = .failed 2 :: [] ∧ 1 < 2 ∧ 2 < countOperand s ∧
       ({ s with txDraws := [.sent] } : State).txDraws = .sent :: []) ∧
    (let s := ready 0#32 5#32 0#32 (bytesAt 0 [0x80#8, 0x80#8, 0x80#8, 0x80#8])
     4 < countOperand s ∧ s.dmem.read (srcOperand s + 4) = none ∧ 4 < 5 ∧
       holdsBytes s.dmem (srcOperand s) [0x80#8, 0x80#8, 0x80#8, 0x80#8] ∧
       [0x80#8, 0x80#8, 0x80#8, 0x80#8].all (fun b => b.getLsbD 7) = true) ∧
    (let s := ready 0#32 2#32 0#32 (bytesAt 0 [0x01#8])
     s.rxArmed = false ∧ srcInRange s ∧ 1 < countOperand s ∧ s.dmem.read (srcOperand s + 1) = none ∧
       uvarintAtSource s [0x01#8] ∧ uvarintValue [0x01#8] ≤ countOperand s - [0x01#8].length ∧
       [0x01#8].length ≤ 1 ∧ 1 < [0x01#8].length + uvarintValue [0x01#8]) := by
  unfold srcInRange uvarintAtSource isUvarint holdsBytes; decide

/-- Each byte of a frame's buffer missing in turn, with the check that comes to it first. -/
theorem witness_UnwrittenSourceFaults_frame :
    ∀ p ∈ [(1, 0), (2, 7), (3, 1), (4, 2), (4, 3), (6, 4), (6, 5), (6, 6)],
      (let s := missingAt p.2
       s.rxArmed = false ∧ srcInRange s ∧ p.2 < countOperand s ∧ s.dmem.read (srcOperand s + p.2) = none ∧
         completesSource s frameOf1 ∧ (∀ c ∈ (parseChecks frameOf1).take p.1, c.1 = true) ∧
         usedByCheck frameOf1 p.1 p.2) := by
  unfold srcInRange completesSource usedByCheck; decide

/-- For NOP, CRC_INIT, CRC_FINAL and CRC_BYTE's sequence: no receive armed; and one armed for Busy. -/
theorem witness_NopClearsErr : State.reset.rxArmed = false ∧ (waiting []).rxArmed = true := by decide
theorem witness_CrcInitSetsAcc : State.reset.rxArmed = false ∧ (waiting []).rxArmed = true := by decide
theorem witness_CrcFinalReadsChecksum : State.reset.rxArmed = false ∧ (waiting []).rxArmed = true := by decide
theorem witness_CrcByteSequence : State.reset.rxArmed = false := by decide

theorem witness_CrcByteStepsAcc :
    (ready 0x131#32 0#32 0#32 []).rxArmed = false ∧
      (ready 0x131#32 0#32 0#32 []).arg0.toNat % 256 = (0x31#8).toNat := by decide

/-- No bytes at the end of DMEM, two bytes up to it, one beyond it. -/
theorem witness_CrcBlockChecksum :
    (let s := ready 4096#32 0#32 0#32 []; srcInRange s ∧ sourceIs s []) ∧
    (let s := ready 4094#32 2#32 0#32 (bytesAt 4094 [0x01#8, 0x02#8]); srcInRange s ∧ sourceIs s [0x01#8, 0x02#8]) ∧
    (let s := ready 4095#32 2#32 0#32 []; s.rxArmed = false ∧ 4096 < srcOperand s + countOperand s) := by
  unfold srcInRange sourceIs holdsBytes; decide

theorem witness_AccIsolation :
    (∃ t, exec .crcBlock (ready 4096#32 0#32 0#32 []) = .next t) ∧ ∃ t, takeTurn .rxByte (waiting [0xAA#8]) = .next t :=
  ⟨⟨_, rfl⟩, ⟨_, rfl⟩⟩

theorem witness_VarintEncWrites :
    (let s := ready 127#32 0#32 4095#32 []; s.rxArmed = false ∧ dstOperand s + vlen s.arg0.toNat ≤ 4096) ∧
    (let s := ready 128#32 0#32 4095#32 []; s.rxArmed = false ∧ 4096 < dstOperand s + vlen s.arg0.toNat) := by decide

/-- No byte to read, five continuation bytes, 2^32; and the longest and a non-canonical varint. -/
theorem witness_VarintDecReads :
    (let s := ready 4096#32 0#32 0#32 []; srcInRange s ∧ noUvarintAtSource s) ∧
    (let s := ready 0#32 6#32 0#32 (bytesAt 0 (List.replicate 5 0x80#8)); srcInRange s ∧ noUvarintAtSource s) ∧
    (let s := ready 0#32 5#32 0#32 (bytesAt 0 [0x80#8, 0x80#8, 0x80#8, 0x80#8, 0x10#8])
     srcInRange s ∧ noUvarintAtSource s) ∧
    (let s := ready 0#32 5#32 0#32 (bytesAt 0 [0xFF#8, 0xFF#8, 0xFF#8, 0xFF#8, 0x0F#8])
     srcInRange s ∧ uvarintAtSource s [0xFF#8, 0xFF#8, 0xFF#8, 0xFF#8, 0x0F#8]) ∧
    (let s := ready 4094#32 2#32 0#32 (bytesAt 4094 [0x80#8, 0x00#8])
     srcInRange s ∧ uvarintAtSource s [0x80#8, 0x00#8]) := by
  refine ⟨⟨by unfold srcInRange; decide, [], ?_⟩, ⟨by unfold srcInRange; decide, List.replicate 5 0x80#8, ?_⟩,
    ⟨by unfold srcInRange; decide, [0x80#8, 0x80#8, 0x80#8, 0x80#8, 0x10#8], ?_⟩, ?_, ?_⟩ <;>
  simp only [srcInRange, uvarintAtSource, isUvarint, holdsBytes] <;> decide

theorem witness_VarintRoundTrip : ([] : List Byte).length < 2 ^ 32 := by decide

/-- The source one too long; the destination one too long; and the last destination that fits. -/
theorem witness_BytesEncWrites :
    (let s := ready 4096#32 1#32 0#32 []; s.rxArmed = false ∧ 4096 < srcOperand s + countOperand s) ∧
    (let s := ready 0#32 0#32 4096#32 []
     srcInRange s ∧ 4096 < dstOperand s + (vlen (countOperand s) + countOperand s)) ∧
    (let s := ready 4093#32 2#32 4093#32 (bytesAt 4093 [0x01#8, 0x02#8])
     srcInRange s ∧ dstOperand s + (vlen (countOperand s) + countOperand s) ≤ 4096 ∧ sourceIs s [0x01#8, 0x02#8]) := by
  unfold srcInRange sourceIs holdsBytes; decide

/-- Declared length 5 with nothing after the varint, and 0 with nothing after it. -/
theorem witness_BytesDecReads :
    (let s := ready 0#32 1#32 0#32 (bytesAt 0 [0x05#8])
     srcInRange s ∧ uvarintAtSource s [0x05#8] ∧ countOperand s - [0x05#8].length < uvarintValue [0x05#8]) ∧
    (let s := ready 4095#32 1#32 0#32 (bytesAt 4095 [0x00#8])
     srcInRange s ∧ uvarintAtSource s [0x00#8] ∧ uvarintValue [0x00#8] ≤ countOperand s - [0x00#8].length) := by
  unfold srcInRange uvarintAtSource isUvarint holdsBytes; decide

theorem witness_StringEncWrites :
    (let s := ready 0#32 1#32 4094#32 (bytesAt 0 [0xC0#8])
     srcInRange s ∧ dstOperand s + (vlen (countOperand s) + countOperand s) ≤ 4096 ∧ sourceIs s [0xC0#8]) ∧
    ¬ wellFormedUtf8 [0xC0#8] ∧
    (let s := ready 0#32 2#32 4093#32 (bytesAt 0 [0x68#8, 0x69#8])
     srcInRange s ∧ dstOperand s + (vlen (countOperand s) + countOperand s) ≤ 4096 ∧ sourceIs s [0x68#8, 0x69#8]) ∧
    wellFormedUtf8 [0x68#8, 0x69#8] := by
  refine ⟨?_, not_utf8, ?_, hi_utf8⟩ <;> (unfold srcInRange sourceIs holdsBytes; decide)

theorem witness_StringDecReads :
    (let s := ready 0#32 2#32 0#32 (bytesAt 0 [0x01#8, 0xC0#8])
     srcInRange s ∧ uvarintAtSource s [0x01#8] ∧ uvarintValue [0x01#8] ≤ countOperand s - [0x01#8].length ∧
       [0xC0#8].length = uvarintValue [0x01#8] ∧ holdsBytes s.dmem (srcOperand s + [0x01#8].length) [0xC0#8]) ∧
    ¬ wellFormedUtf8 [0xC0#8] ∧
    (let s := ready 4093#32 3#32 0#32 (bytesAt 4093 [0x02#8, 0x68#8, 0x69#8])
     srcInRange s ∧ uvarintAtSource s [0x02#8] ∧ uvarintValue [0x02#8] ≤ countOperand s - [0x02#8].length ∧
       [0x68#8, 0x69#8].length = uvarintValue [0x02#8] ∧
       holdsBytes s.dmem (srcOperand s + [0x02#8].length) [0x68#8, 0x69#8]) ∧
    wellFormedUtf8 [0x68#8, 0x69#8] := by
  refine ⟨?_, not_utf8, ?_, hi_utf8⟩ <;> (unfold srcInRange uvarintAtSource isUvarint holdsBytes; decide)

/-- Lengths 0 and 1025 with room for both; the frame one byte too long; lengths 1 and 1024 at the last place. -/
theorem witness_FrameBuildWrites :
    (let s := ready 0#32 0#32 4089#32 []
     srcInRange s ∧ dstOperand s + (7 + countOperand s) ≤ 4096 ∧ countOperand s < 1) ∧
    (let s := ready 3071#32 1025#32 3064#32 []
     srcInRange s ∧ dstOperand s + (7 + countOperand s) ≤ 4096 ∧ 1024 < countOperand s) ∧
    (let s := ready 0#32 1#32 4089#32 []; srcInRange s ∧ 4096 < dstOperand s + (7 + countOperand s)) ∧
    (∀ p ∈ [[0x01#8], List.replicate 1024 0x00#8],
      let s := ready 0#32 (BitVec.ofNat 32 p.length) (BitVec.ofNat 32 (4089 - p.length)) (bytesAt 0 p)
      srcInRange s ∧ dstOperand s + (7 + countOperand s) ≤ 4096 ∧ 1 ≤ countOperand s ∧ countOperand s ≤ 1024 ∧
        sourceIs s p) := by
  refine ⟨by unfold srcInRange; decide, by unfold srcInRange; decide, by unfold srcInRange; decide, ?_⟩
  intro p hp
  have hl : p.length = 1 ∨ p.length = 1024 := by
    simp only [List.mem_cons, List.not_mem_nil, or_false] at hp
    rcases hp with rfl | rfl
    · left; rfl
    · right; exact List.length_replicate
  have := source_ready p (BitVec.ofNat 32 (4089 - p.length)) (by omega)
  rcases hl with h | h
  · rw [h] at this ⊢
    exact ⟨(by decide : (0#32).toNat + (1#32).toNat ≤ 4096),
      (by decide : (BitVec.ofNat 32 (4089 - 1)).toNat + (7 + (1#32).toNat) ≤ 4096),
      (by decide : 1 ≤ (1#32).toNat), (by decide : (1#32).toNat ≤ 1024), this⟩
  · rw [h] at this ⊢
    exact ⟨(by decide : (0#32).toNat + (1024#32).toNat ≤ 4096),
      (by decide : (BitVec.ofNat 32 (4089 - 1024)).toNat + (7 + (1024#32).toNat) ≤ 4096),
      (by decide : 1 ≤ (1024#32).toNat), (by decide : (1024#32).toNat ≤ 1024), this⟩

/-- A buffer of six bytes fails, the frame around [0x01] does not. -/
theorem witness_FrameParseVerdict :
    (let s := ready 4090#32 6#32 0#32 (bytesAt 4090 (frameOf1.take 6)); srcInRange s ∧ sourceIs s (frameOf1.take 6)) ∧
    firstFailure (parseChecks (frameOf1.take 6)) = some .frameTooShort ∧
    (let s := ready 4088#32 8#32 0#32 (bytesAt 4088 frameOf1); srcInRange s ∧ sourceIs s frameOf1) ∧
    firstFailure (parseChecks frameOf1) = none := by
  unfold srcInRange sourceIs holdsBytes
  refine ⟨by decide, by decide, by decide, by decide +kernel⟩

/-- The shortest and the longest payload. -/
theorem witness_FrameRoundTrip : (1 ≤ [0x01#8].length ∧ [0x01#8].length ≤ 1024) ∧
    1 ≤ (List.replicate 1024 0x00#8).length ∧ (List.replicate 1024 0x00#8).length ≤ 1024 := by
  rw [List.length_replicate]; decide
theorem witness_LongBuffersAccepted : 1 ≤ [0x01#8].length ∧ [0x01#8].length ≤ 1024 := by decide

/-- The first payload byte, the last checksum byte, the start, version and end bytes. -/
theorem witness_CorruptionIsDetected :
    1 ≤ [0x01#8].length ∧ [0x01#8].length ≤ 1024 ∧
      (frame [0x01#8])[4]? ≠ some 0x00#8 ∧ (4 ≤ 4 ∧ 4 < 6 + 1) ∧
      (frame [0x01#8])[6]? ≠ some 0x00#8 ∧ (4 ≤ 6 ∧ 6 < 6 + 1) ∧
      (frame [0x01#8])[0]? ≠ some 0xAB#8 ∧ (frame [0x01#8])[1]? ≠ some 0x02#8 ∧
      (frame [0x01#8])[6 + 1]? ≠ some 0x54#8 := by decide +kernel

/-- No byte at all, all taken, one of two taken, a fatal channel, a range one too long, no draw listed. -/
theorem witness_TxSendHandsOver :
    (let s := ready 4096#32 0#32 0#32 []; s.rxArmed = false ∧ s.fatal = false ∧ srcInRange s ∧ countOperand s = 0) ∧
    (let s := { ready 4095#32 1#32 0#32 (bytesAt 4095 [0x07#8]) with txDraws := [.sent] }
     srcInRange s ∧ 1 ≤ countOperand s ∧ sourceIs s [0x07#8] ∧ s.txDraws = .sent :: []) ∧
    (let s := { ready 0#32 2#32 0#32 (bytesAt 0 [0x07#8]) with txDraws := [.failed 1] }
     srcInRange s ∧ 1 < countOperand s ∧ holdsBytes s.dmem (srcOperand s) [0x07#8] ∧ s.txDraws = .failed 1 :: []) ∧
    (let s := ready 4095#32 1#32 0#32 (bytesAt 4095 [0x07#8])
     s.fatal = false ∧ srcInRange s ∧ sourceIs s [0x07#8] ∧ s.txDraws = []) ∧
    ({ State.reset with fatal := true } : State).fatal = true ∧
    (let s := ready 4096#32 1#32 0#32 []; s.fatal = false ∧ 4096 < srcOperand s + countOperand s) := by
  unfold srcInRange sourceIs holdsBytes; decide

theorem witness_RxStartArms :
    (let s := ready 0#32 0#32 3072#32 []; s.rxArmed = false ∧ s.fatal = false ∧ s.arg2.toNat ≤ 3072) ∧
    (let s := ready 0#32 0#32 3073#32 []; s.rxArmed = false ∧ s.fatal = false ∧ 3072 < s.arg2.toNat) ∧
    (({ State.reset with fatal := true } : State).rxArmed = false) := by decide

theorem witness_RxEventsEnabled :
    SafeState State.reset ∧ State.reset.rxArmed = false ∧ isRxEvent .rxExpire ∧ SafeState (waiting [0xAA#8]) :=
  ⟨safe_reset, rfl, .inr (.inl rfl), safe_waiting _⟩

theorem witness_RxByteInWaitStart :
    let s := waiting [0xAA#8]
    s.rxArmed = true ∧ s.rxState = .waitStart ∧ s.rxIn = 0xAA#8 :: [] ∧ (waiting [0xAB#8]).rxIn = 0xAB#8 :: [] ∧
      0xAB#8 ≠ 0xAA#8 := by decide

/-- The third byte, then fourth bytes that make the lengths 1024, 1025 and 0. -/
theorem witness_RxByteInHeader :
    (let s := inHeader [0xAA#8, 0x01#8] [0x00#8]
     s.rxArmed = true ∧ s.rxState = .header ∧ s.rxCnt ≤ 3 ∧ s.rxIn = 0x00#8 :: [] ∧ s.rxCnt < 3) ∧
    (let s := inHeader [0xAA#8, 0x01#8, 0x00#8] [0x04#8]
     s.rxCnt = 3 ∧ 1 ≤ declaredLength (s.rxBuf ++ [0x04#8]) ∧ declaredLength (s.rxBuf ++ [0x04#8]) ≤ 1024) ∧
    (let s := inHeader [0xAA#8, 0x01#8, 0x01#8] [0x04#8]
     s.rxCnt = 3 ∧ 1024 < declaredLength (s.rxBuf ++ [0x04#8])) ∧
    (let s := inHeader [0xAA#8, 0x01#8, 0x00#8] [0x00#8]; s.rxCnt = 3 ∧ declaredLength (s.rxBuf ++ [0x00#8]) < 1) := by
  decide

/-- The last byte but one, the last byte right and wrong. -/
theorem witness_RxByteInBody :
    (SafeState (inBody 1#16 (frameOf1.take 6) [0xAB#8]) ∧ (frameOf1.take 6 ++ [0xAB#8]).length < 7 + (1#16).toNat) ∧
    (SafeState (inBody 1#16 (frameOf1.take 7) [0x55#8]) ∧ (frameOf1.take 7 ++ [0x55#8]).length = 7 + (1#16).toNat ∧
      firstFailure (parseChecks (frameOf1.take 7 ++ [0x55#8])) = none) ∧
    firstFailure (parseChecks (frameOf1.take 7 ++ [0x54#8])) = some .invalidEndByte :=
  ⟨⟨safe_inBody _ _ _ (by decide) (by decide) (by decide) (by decide) (by decide) (by decide), by decide⟩,
    ⟨safe_lastByte, by decide, by decide +kernel⟩, by decide⟩

theorem witness_RxExpireAndFail :
    (waiting []).rxArmed = true ∧ (waiting []).rxState = .waitStart ∧ (inHeader [0xAA#8] []).rxState = .header ∧
      (inBody 1#16 [] []).rxState = .body := by decide

/-- Each receive state ends once. -/
theorem witness_ReceiveOutcomeCodes :
    (SafeState (waiting [0x00#8]) ∧ ∃ t, takeTurn .rxByte (waiting [0x00#8]) = .next t ∧ t.rxArmed = false) ∧
    (SafeState (inHeader [0xAA#8, 0x01#8, 0x00#8] [0x00#8]) ∧
      ∃ t, takeTurn .rxByte (inHeader [0xAA#8, 0x01#8, 0x00#8] [0x00#8]) = .next t ∧ t.rxArmed = false) ∧
    (SafeState (inBody 1#16 (frameOf1.take 7) [0x55#8]) ∧
      ∃ t, takeTurn .rxByte (inBody 1#16 (frameOf1.take 7) [0x54#8]) = .next t ∧ t.rxArmed = false) :=
  ⟨⟨safe_waiting _, _, rfl, rfl⟩,
    ⟨safe_inHeader _ _ (by decide) (by decide) (by decide), _, rfl, rfl⟩, ⟨safe_lastByte, _, rfl, rfl⟩⟩

/-- From no byte held, and with one byte missing of the longest frame but its last. -/
theorem witness_ReceiveEndsWithin1031 :
    (let s := { waiting (List.replicate 1031 0xAA#8) with schedule := List.replicate 1031 .rxByte ++ [] }
     SafeState s ∧ s.rxArmed = true ∧ s.schedule = List.replicate (1031 - s.rxCnt) .rxByte ++ [] ∧
       1031 - s.rxCnt ≤ s.rxIn.length) ∧
    (let s := inBody 1024#16 ([0xAA#8, 0x01#8, 0x00#8, 0x04#8] ++ List.replicate 1026 0x00#8) [0x55#8]
     SafeState s ∧ s.rxArmed = true ∧ 1031 - s.rxCnt ≤ s.rxIn.length) := by
  have hlen : ([0xAA#8, 0x01#8, 0x00#8, 0x04#8] ++ List.replicate 1026 0x00#8).length = 1030 := by
    rw [List.length_append, List.length_replicate]; rfl
  refine ⟨⟨⟨rfl, by decide, rfl, by decide, by decide, rfl, by decide⟩, rfl, rfl, ?_⟩, ?_, rfl, ?_⟩
  · exact Nat.le_trans (Nat.sub_le _ _) (Nat.le_of_eq List.length_replicate.symm)
  · refine safe_inBody _ _ _ ?_ ?_ (by decide) (by decide) rfl rfl <;> rw [hlen] <;> decide
  · have hcnt : ∀ (L : Half) (buf input : List Byte), (inBody L buf input).rxCnt = buf.length := fun _ _ _ => rfl
    rw [hcnt, hlen]; decide

theorem witness_ChannelRoundTrip :
    let s := { waiting (frameLayout [0x01#8] ++ []) with schedule := List.replicate 8 .rxByte ++ [] }
    SafeState s ∧ s.rxState = .waitStart ∧ 1 ≤ [0x01#8].length ∧ [0x01#8].length ≤ 1024 ∧
      s.rxIn = frameLayout [0x01#8] ++ [] ∧ s.schedule = List.replicate (7 + [0x01#8].length) .rxByte ++ [] :=
  ⟨⟨rfl, by decide, rfl, by decide, by decide, rfl, by decide⟩, rfl, by decide, by decide, rfl, rfl⟩

theorem witness_InvariantKept :
    let s := { waiting [0xAA#8] with schedule := [.rxByte] }
    SafeState s ∧ ∃ t, step s = .next t :=
  ⟨⟨rfl, by decide, rfl, by decide, by decide, rfl, by decide⟩, _, rfl⟩

theorem witness_CodesStayInTheirRows :
    let s := { waiting [0x00#8] with schedule := [.rxByte] }
    SafeState s ∧ s.err ∈ commandCodes ∧ s.rxErr ∈ receiveCodes ∧ ∃ t, step s = .next t :=
  ⟨⟨rfl, by decide, rfl, by decide, by decide, rfl, by decide⟩, by decide, by decide, _, rfl⟩

/-- Set and kept by a NOP; set by each failure; cleared by each reset. -/
theorem witness_FatalLifecycle :
    (let s := hostAt (.access (.wr32 0 0#32)) { State.reset with fatal := true }
     s.fatal = true ∧ ¬ resetsNext s ∧ ∃ t, step s = .next t) ∧
    (let s := hostAt (.access (.wr32 0 0x30#32)) { ready 0#32 1#32 0#32 [] with txDraws := [.failed 0] }
     s.fatal = false ∧ ∃ t, step s = .next t ∧ t.fatal = true) ∧
    (∃ t, exec .txSend { ready 0#32 1#32 0#32 [] with txDraws := [.failed 0] } = .next t ∧ t.err = .ioFailure) ∧
    (∃ t, takeTurn .rxIoFail (waiting []) = .next t) ∧
    (let s := hostAt .reset { State.reset with fatal := true }; resetsNext s ∧ ∃ t, step s = .next t) ∧
    (({ State.reset with fatal := true } : State).rxArmed = false) :=
  ⟨⟨rfl, by unfold resetsNext; decide, _, rfl⟩, ⟨rfl, _, rfl, rfl⟩, ⟨_, rfl, rfl⟩, ⟨_, rfl⟩, ⟨.inr rfl, _, rfl⟩, rfl⟩

theorem witness_AccChangedOnlyBy :
    let s := hostAt (.access (.wr32 0x01C 0x12345678#32)) State.reset
    ∃ t, step s = .next t ∧ t.acc ≠ s.acc := ⟨_, rfl, by decide⟩

/-- A host byte write, and the byte that ends a receive OK. -/
theorem witness_DmemChangedOnlyBy :
    (let s := hostAt (.access (.wr8 0x1FFF 0x01#8)) State.reset; ∃ t, step s = .next t ∧ t.dmem ≠ s.dmem) ∧
    (let s := { inBody 1#16 (frameOf1.take 7) [0x55#8] with schedule := [.rxByte] }
     goes (step s) (fun t => t.rxLen != s.rxLen) = true) := ⟨⟨_, rfl, by decide⟩, by decide +kernel⟩

theorem witness_StatusFieldsIndependent :
    (∃ t, exec .nop (waiting []) = .next t) ∧ isRxEvent .rxIoFail ∧ ∃ t, takeTurn .rxIoFail (waiting []) = .next t :=
  ⟨⟨_, rfl⟩, .inr (.inr rfl), _, rfl⟩

theorem witness_HostReadsHaveNoEffect : ∀ off ∈ [0x000, 0x028, 0x02C, 0xFFC], off % 4 = 0 ∧ off < 0x1000 := by decide
theorem witness_StatusWordFields : SafeState (waiting []) := safe_waiting _
theorem witness_HostWritesStore : ∀ off ∈ [0x004, 0x01C, 0xFFC], off % 4 = 0 ∧ 0x004 ≤ off ∧ off < 0x1000 := by decide

theorem witness_HostDmemAccess :
    (4095 < 4096 ∧ (bytesAt 4095 [0x07#8]).read 4095 = some 0x07#8) ∧ 0 < 4096 ∧ State.reset.dmem.read 0 = none := by
  decide

theorem witness_MisshapenAccessesRefused :
    (0xFFF < 0x1000 ∧ 0x2000 ≤ 0x2000) ∧ (0x002 % 4 ≠ 0 ∧ 0x1000 ≤ 0x1000) ∧ (0xFFC % 4 = 0 ∧ 0xFFC < 0x1000) ∧
      (0x1000 ≤ 0x1000 ∧ 0x1FFF < 0x2000) := by decide

theorem witness_HostBranches :
    let s := { State.reset with observed := [.reg 0x018 0x400#32] }
    lastRead (regOffset .status) s.observed = some 0x400#32 ∧ (0x400#32).getLsbD 10 = true ∧
      (0x400#32).getLsbD 9 = false := by decide

theorem witness_MessageRoundTrip : messageDataLength (.i2cWrite 0x50#8 [0x01#8]) < 2 ^ 32 := by decide

end Sys2Proof.Tests
end

section
/-! SUPPORT. Facts about the words, the registers, the receive buffer and the host's accesses that the statements on
the machine's state rest on. -/

namespace Sys2Proof.Machine

/-! ## Words put together from fields -/

theorem toNat_append_eq_add {m n : Nat} (x : BitVec m) (y : BitVec n) :
    (x ++ y).toNat = 2 ^ n * x.toNat + y.toNat := by
  rw [BitVec.toNat_append, ← Nat.shiftLeft_add_eq_or_of_lt y.isLt, Nat.shiftLeft_eq, Nat.mul_comm]

theorem fromLe16_toNat (b0 b1 : Byte) : (fromLe16 b0 b1).toNat = b0.toNat + 256 * b1.toNat :=
  (toNat_append_eq_add b1 b0).trans (Nat.add_comm _ _)

theorem setWidth_16_eq_ofNat (w : Word) : w.setWidth 16 = BitVec.ofNat 16 (w.toNat % 65536) := by
  apply BitVec.eq_of_toNat_eq
  simp

/-! ## The register map (10_state.md R20) -/

@[simp] theorem regAt_regOffset (r : HostReg) : regAt (regOffset r) = some r := by cases r <;> rfl

theorem regAt_eq_some_iff {off : Nat} {r : HostReg} : regAt off = some r ↔ off = regOffset r :=
  ⟨fun h => (regOffset_of_regAt h).symm, fun h => h ▸ regAt_regOffset r⟩

theorem ne_regOffset_of_regAt_eq_none {off : Nat} (h : regAt off = none) (r : HostReg) : off ≠ regOffset r := by
  rintro rfl
  simp at h

theorem regOffset_lt (r : HostReg) : regOffset r < 0x02C := by cases r <;> decide

/-- The offsets after RXCRC are reserved. -/
theorem regAt_of_ge {off : Nat} (h : 0x02C ≤ off) : regAt off = none := by
  cases hr : regAt off with
  | none => rfl
  | some r =>
    have hlt := regOffset_lt r
    rw [regOffset_of_regAt hr] at hlt
    omega

@[simp] theorem State.readOffset_regOffset (s : State) (r : HostReg) : s.readOffset (regOffset r) = s.readReg r := by
  simp [State.readOffset]

theorem State.readOffset_of_ge (s : State) {off : Nat} (h : 0x02C ≤ off) : s.readOffset off = 0#32 := by
  simp [State.readOffset, regAt_of_ge h]

theorem writeOffset_regOffset {r : HostReg} (hr : r ≠ .cmd) (w : Word) (s : State) :
    writeOffset (regOffset r) w s = .next (s.writeReg w r) := by
  cases r with
  | cmd => exact absurd rfl hr
  | _ => rfl

theorem writeOffset_of_reserved {off : Nat} (h : regAt off = none) (w : Word) (s : State) :
    writeOffset off w s = .next s := by
  simp [writeOffset, h]

/-! ## The host's 32-bit accesses (20_memory.md R53) -/

theorem hostAct_rd32 (s : State) {off : Nat} (h4 : off % 4 = 0) (hlt : off < 0x1000) :
    hostAct s (.access (.rd32 off)) = .next (s.observe (.reg off (s.readOffset off))) := by
  simp [hostAct, hostAccess, HostAccess.wellFormed, answerAccess, h4, hlt]

theorem hostAct_wr32 (s : State) {off : Nat} (w : Word) (h4 : off % 4 = 0) (hlt : off < 0x1000) :
    hostAct s (.access (.wr32 off w)) = writeOffset off w s := by
  simp [hostAct, hostAccess, HostAccess.wellFormed, answerAccess, h4, hlt]

theorem nextHostAction_of_host {s : State} {rest : List Turn} {act : HostAction} (hs : s.schedule = .host :: rest)
    (hp : s.hostProgram[s.hostPos]? = some act) : nextHostAction s = some act := by
  simp [nextHostAction, hs, hp]

/-! ## The bytes of a receive buffer -/

theorem byteNat_append {f : List Byte} {i : Nat} (h : i < f.length) (g : List Byte) :
    byteNat (f ++ g) i = byteNat f i := by
  simp [byteNat, List.getElem?_append_left h]

theorem declaredLength_append {f : List Byte} (h : 4 ≤ f.length) (g : List Byte) :
    declaredLength (f ++ g) = declaredLength f := by
  simp only [declaredLength]
  rw [byteNat_append (by omega), byteNat_append (by omega)]

/-- The length the receive machine latches is the one the frame declares (43_transport.md R186). -/
theorem fromLe16_getD_toNat (f : List Byte) :
    (fromLe16 (f.getD 2 0#8) (f.getD 3 0#8)).toNat = declaredLength f := fromLe16_toNat _ _

theorem badLength_eq_false_iff (L : Nat) : badLength L = false ↔ 1 ≤ L ∧ L ≤ 1024 := by
  simp [badLength]
  omega

/-- The parser accepts legal payload lengths only (42_frame.md R161). -/
theorem length_of_parse_eq_ok {f : List (Option Byte)} {L : Nat} {rx : Half} (h : parse f = .ok (L, rx)) :
    1 ≤ L ∧ L ≤ 1024 := by
  simp only [parse, bind_eq_ok, raiseIf_eq_ok, pure_ok, Except.ok.injEq, Prod.mk.injEq] at h
  obtain ⟨_, -, _, -, _, -, _, -, _, -, _, -, _, -, lo, -, hi, -, _, hL, _, -, _, -, _, -, _, -, _, -, rfl, -⟩ := h
  exact (badLength_eq_false_iff _).1 hL

end Sys2Proof.Machine
end

section
/-! SUPPORT. The invariant: what it depends on, and that every operation of the machine keeps it (10_state.md sections
1 and 3; 43_transport.md sections 2 and 3). -/

namespace Sys2Proof.Machine

variable {s t : State}

/-! ## What the invariant depends on -/

/-- The fields the invariant speaks of, besides DMEM and FATAL: the receive machine's and RXLEN. -/
def State.receiveFields (s : State) :
    Bool × RxState × Option Word × Word × Word × List Byte × Half × BitVec 11 :=
  (s.rxArmed, s.rxState, s.rxTimer, s.rxTmo, s.rxDst, s.rxBuf, s.rxL, s.rxLen)

/-- A change outside the receive machine keeps the invariant when DMEM stays canonical and no armed receive meets a
fatal channel. -/
theorem SafeState.of_receiveFields_eq (h : SafeState s) (he : t.receiveFields = s.receiveFields)
    (hm : t.dmem.wf = true) (hf : t.rxArmed = true → t.fatal = false) : SafeState t := by
  simp only [State.receiveFields, Prod.mk.injEq] at he
  obtain ⟨harmed, hstate, htimer, htmo, hdst, hbuf, hL, hlen⟩ := he
  have hb := h.buffer
  constructor
  case memory => exact hm
  case armed => rw [harmed, hstate]; exact h.armed
  case timer => rw [htimer, harmed, htmo]; exact h.timer
  case room => rw [harmed, hdst]; exact h.room
  case channel => exact hf
  case buffer => simpa only [bufferFits, State.rxCnt, hstate, hbuf, hL] using hb
  case length => rw [hlen]; exact h.length

/-- Nothing armed and nothing received: the invariant asks only for DMEM and RXLEN. -/
theorem SafeState.of_idle (hm : s.dmem.wf = true) (ha : s.rxArmed = false) (hs : s.rxState = .idle)
    (ht : s.rxTimer = none) (hb : s.rxBuf = []) (hl : s.rxLen.toNat ≤ 1024) : SafeState s := by
  constructor
  case memory => exact hm
  case armed => simp [ha, hs]
  case timer => simp [ha, ht]
  case room => simp [ha]
  case channel => simp [ha]
  case buffer => simpa only [bufferFits, hs] using hb
  case length => exact hl

/-- The buffer of a safe state never holds a whole longest frame. -/
theorem SafeState.rxCnt_le (h : SafeState s) : s.rxCnt ≤ 1030 := by
  have hb := h.buffer
  unfold bufferFits at hb
  split at hb
  · simp [State.rxCnt, hb]
  · simp [State.rxCnt, hb]
  · omega
  · omega

/-! ## Reset, the end of a receive, arming -/

theorem safeState_assertReset (h : s.dmem.wf = true) : SafeState s.assertReset :=
  .of_idle h rfl rfl rfl rfl (Nat.zero_le _)

theorem safeState_endReceive (hm : s.dmem.wf = true) (hl : s.rxLen.toNat ≤ 1024) (e : ResultCode) :
    SafeState (s.endReceive e) :=
  .of_idle hm rfl rfl rfl rfl hl

theorem SafeState.raised (h : SafeState s) (e : ResultCode) : SafeState (s.raised e) :=
  h.of_receiveFields_eq rfl h.memory h.channel

theorem SafeState.arm (h : SafeState s) (hf : s.fatal = false) (hr : dstOperand s + 1024 ≤ 4096) :
    SafeState s.arm := by
  constructor
  case memory => exact h.memory
  case armed => simp
  case timer => simp
  case room => exact fun _ => hr
  case channel => exact fun _ => hf
  case buffer => exact (rfl : s.arm.rxBuf = [])
  case length => exact h.length

/-! ## Commands and the host's actions -/

theorem exec_busy (i : Instr) (h : s.rxArmed = true) : exec i s = .next (s.raised .busy) := by
  cases i <;> exact issue_busy _ h

/-- A command keeps the invariant: armed, it only raises Busy, so a failing TX_SEND meets no armed receive. -/
theorem SafeState.exec {i : Instr} (h : SafeState s) (ht : exec i s = .next t) : SafeState t := by
  cases ha : s.rxArmed with
  | true =>
    rw [exec_busy i ha] at ht
    injection ht with ht
    exact ht ▸ h.raised .busy
  | false =>
    rcases exec_effect ht with ⟨e, _, rfl⟩ | ⟨a, r0, r1, _, rfl⟩ | ⟨r0, r1, addr, d, _, hr, rfl⟩ |
      ⟨out, r1, f, ds, k, e, _, _, _, rfl⟩ | ⟨_, hf, _, hr, rfl⟩
    case raised => exact h.raised e
    case registers => exact h.of_receiveFields_eq rfl h.memory h.channel
    case stored => exact h.of_receiveFields_eq rfl (Memory.wf_writeBytes d _ addr hr h.memory) h.channel
    case sent => exact h.of_receiveFields_eq rfl h.memory fun harmed => absurd (ha.symm.trans harmed) (by decide)
    case armed => exact h.arm hf hr

theorem SafeState.writeReg (h : SafeState s) (w : Word) (r : HostReg) : SafeState (s.writeReg w r) := by
  cases r <;> exact h.of_receiveFields_eq rfl h.memory h.channel

theorem SafeState.hostEffect {act : HostAction} (h : SafeState s) (he : HostEffect act s t) : SafeState t := by
  rcases he with ⟨pos, seen, rfl⟩ | ⟨off, b, _, hr, rfl⟩ | ⟨off, w, r, _, _, _, rfl⟩ | ⟨w, i, _, _, ht⟩ |
    ⟨e, _, rfl⟩ | ⟨_, rfl⟩
  case looked => exact h.of_receiveFields_eq rfl h.memory h.channel
  case storedByte => exact h.of_receiveFields_eq rfl (Memory.wf_write _ _ b (by omega) h.memory) h.channel
  case wroteReg => exact h.writeReg w r
  case issued => exact h.exec ht
  case illegal => exact h.raised e
  case wasReset => exact safeState_assertReset h.memory

/-! ## The receive machine -/

/-- An armed receive stays safe when the bytes it then holds fit its new state and its timer runs on RX_TMO. -/
theorem SafeState.collect (h : SafeState s) (ha : s.rxArmed = true) {buf : List Byte} {st : RxState} {L : Half}
    {timer : Option Word} (hs : st ≠ .idle) (htimer : timer = some s.rxTmo)
    (hb : bufferFits { s with rxBuf := buf, rxState := st, rxL := L }) :
    SafeState { s with rxBuf := buf, rxState := st, rxL := L, rxTimer := timer } := by
  constructor
  case memory => exact h.memory
  case armed => exact ⟨fun _ => hs, fun _ => ha⟩
  case timer => simp [ha, htimer]
  case room => exact h.room
  case channel => exact h.channel
  case buffer => exact hb
  case length => exact h.length

theorem SafeState.timer_running (h : SafeState s) (ha : s.rxArmed = true) : s.rxTimer = some s.rxTmo := by
  simpa [ha] using h.timer

theorem SafeState.endReceive (h : SafeState s) (e : ResultCode) : SafeState (s.endReceive e) :=
  safeState_endReceive h.memory h.length e

theorem SafeState.rxByteWaitStart {b : Byte} (h : SafeState s) (ha : s.rxArmed = true)
    (ht : rxByteWaitStart s b = .next t) : SafeState t := by
  unfold Machine.rxByteWaitStart at ht
  split at ht <;> injection ht with ht <;> subst ht
  next hb =>
    refine h.collect ha (st := .header) (L := s.rxL) (by decide) rfl ⟨Nat.le_refl 1, (by decide : 1 ≤ 3), ?_⟩
    rw [hb]; rfl
  next => exact h.endReceive _

theorem SafeState.rxByteHeader {b : Byte} (h : SafeState s) (ha : s.rxArmed = true) (hs : s.rxState = .header)
    (ht : rxByteHeader s b = .next t) : SafeState t := by
  have hfit := h.buffer
  simp only [bufferFits, hs, State.rxCnt] at hfit
  obtain ⟨hlo, hhi, hstart⟩ := hfit
  have hlen : (s.rxBuf ++ [b]).length = s.rxBuf.length + 1 := by simp
  have hstart' : byteNat (s.rxBuf ++ [b]) 0 = 0xAA := by rw [byteNat_append (by omega), hstart]
  unfold Machine.rxByteHeader at ht
  dsimp only at ht
  split at ht
  next h4 =>
    split at ht <;> injection ht with ht <;> subst ht
    next => exact h.endReceive _
    next hbad =>
      have hL := (badLength_eq_false_iff _).1 (Bool.not_eq_true _ ▸ hbad)
      refine h.collect ha (st := .body) (by decide) rfl ⟨h4.ge, ?_, hL.1, hL.2, hstart', (fromLe16_getD_toNat _).symm⟩
      simp only [State.rxCnt]; omega
  next h4 =>
    injection ht with ht
    subst ht
    refine h.collect ha (L := s.rxL) (by simp [hs]) (h.timer_running ha) ?_
    simp only [bufferFits, hs, State.rxCnt]
    exact ⟨by omega, by omega, hstart'⟩

/-- The whole frame is held: an accepted payload has at most 1024 bytes, and an armed receive has room for them. -/
theorem SafeState.finishFrame {f : List Byte} (h : SafeState s) (ha : s.rxArmed = true)
    (ht : finishFrame s f = .next t) : SafeState t := by
  unfold Machine.finishFrame at ht
  split at ht
  next L rx hp =>
    injection ht with ht
    subst ht
    have hL := (length_of_parse_eq_ok hp).2
    have hroom := h.room ha
    have hpayload : ((f.drop 4).take L).length ≤ L := List.length_take_le _ _
    refine safeState_endReceive (Memory.wf_writeBytes _ _ _ (by omega) h.memory) ?_ .ok
    rw [State.deliverPayload_rxLen, BitVec.toNat_ofNat]
    omega
  next e hp =>
    injection ht with ht
    exact ht ▸ h.endReceive e
  next => cases ht

theorem SafeState.rxByteBody {b : Byte} (h : SafeState s) (ha : s.rxArmed = true) (hs : s.rxState = .body)
    (ht : rxByteBody s b = .next t) : SafeState t := by
  unfold Machine.rxByteBody at ht
  dsimp only at ht
  split at ht
  next => exact h.finishFrame ha ht
  next hlast =>
    injection ht with ht
    subst ht
    have hfit := h.buffer
    simp only [bufferFits, hs, State.rxCnt] at hfit
    obtain ⟨hlo, hhi, hL, hL', hstart, hdecl⟩ := hfit
    have hlen : (s.rxBuf ++ [b]).length = s.rxBuf.length + 1 := by simp
    have hmore : (s.rxBuf ++ [b]).length ≠ 7 + s.rxL.toNat := hlast
    refine h.collect ha (L := s.rxL) (by simp [hs]) (h.timer_running ha) ?_
    simp only [bufferFits, hs, State.rxCnt]
    refine ⟨by omega, by omega, hL, hL', ?_, ?_⟩
    · rw [byteNat_append (by omega), hstart]
    · rw [declaredLength_append hlo, hdecl]

theorem SafeState.takeRxByte {b : Byte} (h : SafeState s) (ha : s.rxArmed = true)
    (ht : takeRxByte s b = .next t) : SafeState t := by
  unfold Machine.takeRxByte at ht
  split at ht
  next => cases ht
  next => exact h.rxByteWaitStart ha ht
  next hs => exact h.rxByteHeader ha hs ht
  next hs => exact h.rxByteBody ha hs ht

theorem SafeState.rxByteEvent (h : SafeState s) (ht : rxByteEvent s = .next t) : SafeState t := by
  unfold Machine.rxByteEvent at ht
  split at ht
  next b rest ha _ =>
    have hrest : SafeState { s with rxIn := rest } := h.of_receiveFields_eq rfl h.memory h.channel
    exact hrest.takeRxByte ha ht
  next => cases ht

theorem SafeState.rxExpireEvent (h : SafeState s) (ht : rxExpireEvent s = .next t) : SafeState t := by
  unfold Machine.rxExpireEvent at ht
  split at ht
  next =>
    split at ht <;> injection ht with ht <;> exact ht ▸ h.endReceive _
  next => cases ht

theorem SafeState.rxIoFailEvent (h : SafeState s) (ht : rxIoFailEvent s = .next t) : SafeState t := by
  unfold Machine.rxIoFailEvent at ht
  split at ht
  next =>
    injection ht with ht
    exact ht ▸ safeState_endReceive (s := { s with fatal := true }) h.memory h.length _
  next => cases ht

theorem SafeState.takeRxEvent {e : Turn} (h : SafeState s) (he : isRxEvent e) (ht : takeTurn e s = .next t) :
    SafeState t := by
  rcases he with rfl | rfl | rfl
  · exact h.rxByteEvent ht
  · exact h.rxExpireEvent ht
  · exact h.rxIoFailEvent ht

/-- Settles O45: each agent's turn keeps the invariant, after the schedule and the host's position have moved on. -/
theorem invariantKept : Obligations.InvariantKept := by
  intro s t h ht
  rcases step_effect ht with ⟨rest, act, _, _, he⟩ | ⟨rest, e, _, hr, he, _⟩ | ⟨rest, _, rfl⟩
  case host =>
    have hmoved : SafeState { s with schedule := rest, hostPos := s.hostPos + 1 } :=
      h.of_receiveFields_eq rfl h.memory h.channel
    exact hmoved.hostEffect he
  case receive =>
    have hmoved : SafeState { s with schedule := rest } := h.of_receiveFields_eq rfl h.memory h.channel
    exact hmoved.takeRxEvent hr he
  case platform => exact safeState_assertReset h.memory

/-- Settles O44: power-on reset is the reset of a machine with nothing in DMEM. -/
theorem invariantAtReset : Obligations.InvariantAtReset :=
  safeState_assertReset (s := State.reset) Memory.wf_nil

end Sys2Proof.Machine
end

section
/-! SUPPORT. The writers of ACC, the words of the status registers and the host's register accesses (10_state.md
section 1). -/

namespace Sys2Proof.Machine

variable {s t : State}

/-! ## The writers of ACC (10_state.md R26) -/

theorem exec_acc_changed {i : Instr} (h : exec i s = .next t) (ha : t.acc ≠ s.acc) : i = .crcInit ∨ i = .crcByte := by
  rcases exec_effect h with ⟨e, _, rfl⟩ | ⟨a, r0, r1, hwriters, rfl⟩ | ⟨r0, r1, addr, d, _, _, rfl⟩ |
    ⟨out, r1, f, ds, k, e, _, _, _, rfl⟩ | ⟨_, _, _, _, rfl⟩
  case registers => exact hwriters ha
  all_goals exact absurd rfl ha

theorem writeReg_acc_changed {w : Word} {r : HostReg} (ha : (s.writeReg w r).acc ≠ s.acc) : r = .crc := by
  cases r with
  | crc => rfl
  | _ => exact absurd rfl ha

theorem hostEffect_acc_changed {act : HostAction} (he : HostEffect act s t) (ha : t.acc ≠ s.acc) :
    act = .reset ∨
      (∃ w i, act = .access (.wr32 0 w) ∧ decode w = .ok i ∧ (i = .crcInit ∨ i = .crcByte)) ∨
      ∃ w, act = .access (.wr32 0x01C w) := by
  rcases he with ⟨pos, seen, rfl⟩ | ⟨off, b, _, _, rfl⟩ | ⟨off, w, r, hact, hr, _, rfl⟩ | ⟨w, i, hact, hd, ht⟩ |
    ⟨e, _, rfl⟩ | ⟨hact, _⟩
  case wroteReg =>
    have hcrc := writeReg_acc_changed ha
    subst hcrc
    rw [← regOffset_of_regAt hr] at hact
    exact .inr (.inr ⟨w, hact⟩)
  case issued => exact .inr (.inl ⟨w, i, hact, hd, exec_acc_changed ht ha⟩)
  case wasReset => exact .inl hact
  all_goals exact absurd rfl ha

theorem receiveEffect_acc {e : Turn} (he : ReceiveEffect e s t) : t.acc = s.acc := by
  cases he <;> subst t <;> rfl

/-- Settles O48: only a host action or a reset can change ACC, and of the host's actions only the named ones do. -/
theorem accChangedOnlyBy : Obligations.AccChangedOnlyBy := by
  intro s t h ha
  rcases step_effect h with ⟨rest, act, hs, hp, he⟩ | ⟨rest, e, _, _, _, he⟩ | ⟨rest, hs, _⟩
  case host =>
    have hnext := nextHostAction_of_host hs hp
    rcases hostEffect_acc_changed he ha with rfl | ⟨w, i, rfl, hd, rfl | rfl⟩ | ⟨w, rfl⟩
    · exact .inl (.inr hnext)
    · exact .inr (.inl ⟨w, hnext, hd⟩)
    · exact .inr (.inr (.inl ⟨w, hnext, hd⟩))
    · exact .inr (.inr (.inr ⟨w, hnext⟩))
  case receive => exact absurd (receiveEffect_acc he) ha
  case platform => exact .inl (.inl (by simp [hs]))

/-! ## The words of the status registers (10_state.md R25, R28) -/

theorem statusWord_toNat (s : State) :
    s.statusWord.toNat =
      s.err.code.toNat + 2 ^ 8 * s.fatal.toNat + 2 ^ 9 * s.rxArmed.toNat + 2 ^ 10 * s.rxDone.toNat := by
  simp only [State.statusWord, toNat_append_eq_add, BitVec.toNat_ofBool, BitVec.toNat_ofNat]
  omega

theorem rxStatusWord_toNat (h : s.rxCnt < 2 ^ 11) :
    s.rxStatusWord.toNat = s.rxErr.code.toNat + 2 ^ 8 * s.rxState.code.toNat + 2 ^ 16 * s.rxCnt := by
  simp only [State.rxStatusWord, toNat_append_eq_add, BitVec.toNat_ofNat, Nat.mod_eq_of_lt h]
  omega

/-- Settles O52: the words are sums of their fields, RX_CNT fitting its 11 bits by the invariant; the numbers are
checked code by code. -/
theorem statusWordFields : Obligations.StatusWordFields := by
  refine ⟨fun s h => ⟨statusWord_toNat s, rxStatusWord_toNat ?_⟩, ?_, ?_⟩
  · have hcnt := h.rxCnt_le
    omega
  · intro e
    cases e <;> decide
  · intro r
    cases r <;> decide

/-! ## The host's register accesses (10_state.md R20 to R26) -/

/-- Settles O53: the offset is a register's, and the write is `writeReg`, or it is reserved and ignores the write. -/
theorem hostWritesStore : Obligations.HostWritesStore := by
  intro s off w h4 hlo hhi
  rw [hostAct_wr32 s w h4 hhi]
  cases hr : regAt off with
  | some r =>
    rw [regAt_eq_some_iff] at hr
    subst hr
    have hcmd : r ≠ .cmd := by
      rintro rfl
      exact absurd hlo (by decide)
    rw [writeOffset_regOffset hcmd]
    cases r with
    | cmd => exact absurd rfl hcmd
    | crc => rw [← setWidth_16_eq_ofNat]; rfl
    | _ => rfl
  | none =>
    have hne := ne_regOffset_of_regAt_eq_none hr
    have harg0 : off ≠ 0x004 := hne .arg0
    have harg1 : off ≠ 0x008 := hne .arg1
    have harg2 : off ≠ 0x00C := hne .arg2
    have hcrc : off ≠ 0x01C := hne .crc
    rw [writeOffset_of_reserved hr, if_neg harg0, if_neg harg1, if_neg harg2, if_neg hcrc]

/-- Settles O51: the value is the word at the offset, read register by register. -/
theorem hostReadsHaveNoEffect : Obligations.HostReadsHaveNoEffect := by
  intro s off h4 hhi
  have hread : ∀ r, off = regOffset r → s.readOffset off = s.readReg r := by
    rintro r rfl
    exact s.readOffset_regOffset r
  refine ⟨s.readOffset off, hostAct_rd32 s h4 hhi, ?_, hread .arg0, hread .arg1, hread .arg2, hread .res0,
    hread .res1, hread .status, ?_, hread .rxstatus, ?_, ?_⟩
  · rintro (h0 | hge)
    · exact hread .cmd h0
    · exact s.readOffset_of_ge hge
  · intro h
    rw [hread .crc h]
    exact BitVec.toNat_setWidth_of_le (by decide)
  · intro h
    rw [hread .rxlen h]
    exact BitVec.toNat_setWidth_of_le (by decide)
  · intro h
    rw [hread .rxcrc h]
    exact BitVec.toNat_setWidth_of_le (by decide)

end Sys2Proof.Machine
end

section
/-! SUPPORT. The host's DMEM accesses, the accesses that have no step, and the writers of DMEM, RXLEN and RXCRC
(20_memory.md sections 2 to 4; 10_state.md section 1). -/

namespace Sys2Proof.Machine

variable {s t : State}

/-! ## The host's accesses (20_memory.md R52, R53) -/

theorem hostAct_access_of_wellFormed {a : HostAccess} (s : State) (h : a.wellFormed = true) :
    hostAct s (.access a) = answerAccess s a := if_pos h

theorem hostAct_access_of_misshapen {a : HostAccess} (s : State) (h : a.wellFormed = false) :
    hostAct s (.access a) = .refused .hostAccess := if_neg (by simp [h])

theorem misshapen_byteAccess {off : Nat} (h : off < 0x1000 ∨ 0x2000 ≤ off) (b : Byte) :
    (HostAccess.rd8 off).wellFormed = false ∧ (HostAccess.wr8 off b).wellFormed = false :=
  ⟨decide_eq_false (by omega), decide_eq_false (by omega)⟩

theorem misshapen_wordAccess {off : Nat} (h : off % 4 ≠ 0 ∨ 0x1000 ≤ off) (w : Word) :
    (HostAccess.rd32 off).wellFormed = false ∧ (HostAccess.wr32 off w).wellFormed = false :=
  ⟨decide_eq_false (by omega), decide_eq_false (by omega)⟩

theorem hostAct_rd8 (s : State) {off : Nat} (hlo : 0x1000 ≤ off) (hhi : off < 0x2000) :
    hostAct s (.access (.rd8 off)) = readDmem (off - 0x1000) s :=
  hostAct_access_of_wellFormed s (decide_eq_true ⟨hlo, hhi⟩)

theorem hostAct_wr8 (s : State) {off : Nat} (b : Byte) (hlo : 0x1000 ≤ off) (hhi : off < 0x2000) :
    hostAct s (.access (.wr8 off b)) = .next { s with dmem := s.dmem.write (off - 0x1000) b } :=
  hostAct_access_of_wellFormed s (decide_eq_true ⟨hlo, hhi⟩)

theorem readDmem_of_written {a : Nat} {b : Byte} (h : s.dmem.read a = some b) :
    readDmem a s = .next (s.observe (.dmem a b)) := by
  simp [readDmem, h]

theorem readDmem_of_unwritten {a : Nat} (h : s.dmem.read a = none) : readDmem a s = .fault .unwrittenByte := by
  simp [readDmem, h]

/-! ## Nothing the host may access is refused -/

theorem readDmem_not_refused (a : Nat) (s : State) (r : Refusal) : readDmem a s ≠ .refused r := by
  cases h : s.dmem.read a with
  | some b => simp [readDmem_of_written h]
  | none => simp [readDmem_of_unwritten h]

theorem exec_not_refused (i : Instr) (s : State) (r : Refusal) : exec i s ≠ .refused r := by
  cases i <;> exact issue_not_refused _ _ r

theorem issueCommand_not_refused (w : Word) (s : State) (r : Refusal) : issueCommand w s ≠ .refused r := by
  unfold issueCommand
  split
  · exact exec_not_refused _ s r
  · exact issue_not_refused s _ r

theorem writeOffset_not_refused (off : Nat) (w : Word) (s : State) (r : Refusal) :
    writeOffset off w s ≠ .refused r := by
  unfold writeOffset
  split
  · exact issueCommand_not_refused w s r
  · simp
  · simp

/-- Settles O55: the shapes outside R53 fail the access check, and what answers the two legal shapes never refuses. -/
theorem misshapenAccessesRefused : Obligations.MisshapenAccessesRefused := by
  intro s off b h w
  refine ⟨rfl, rfl, fun hout => ?_, fun hout => ?_, fun r => ⟨fun h4 hlt => ?_, fun hlo hhi => ?_⟩⟩
  · obtain ⟨hrd, hwr⟩ := misshapen_byteAccess hout b
    exact ⟨hostAct_access_of_misshapen s hrd, hostAct_access_of_misshapen s hwr⟩
  · obtain ⟨hrd, hwr⟩ := misshapen_wordAccess hout w
    exact ⟨hostAct_access_of_misshapen s hrd, hostAct_access_of_misshapen s hwr⟩
  · rw [hostAct_rd32 s h4 hlt, hostAct_wr32 s w h4 hlt]
    exact ⟨nofun, writeOffset_not_refused off w s r⟩
  · rw [hostAct_rd8 s hlo hhi, hostAct_wr8 s b hlo hhi]
    exact ⟨readDmem_not_refused _ s r, nofun⟩

/-! ## What a store leaves in DMEM (20_memory.md R55) -/

/-- `writeBytes` stores its bytes from the address on, and no other byte. -/
theorem storedBytes_writeBytes (m : Memory) (a : Nat) (d : List Byte) : storedBytes m (m.writeBytes a d) a d :=
  ⟨Memory.read_writeBytes_inside d m a, Memory.read_writeBytes_outside d m a⟩

/-- Settles O54: DMEM address `a` is the host's offset `0x1000 + a`; the write is a store of one byte, and the read
answers by whether the byte is written. -/
theorem hostDmemAccess : Obligations.HostDmemAccess := by
  intro s a ha
  have hlo : 0x1000 ≤ 0x1000 + a := by omega
  have hhi : 0x1000 + a < 0x2000 := by omega
  have haddr : 0x1000 + a - 0x1000 = a := by omega
  refine ⟨fun b => ⟨s.dmem.write a b, ?_, storedBytes_writeBytes s.dmem a [b]⟩, fun b hb => ?_, fun hb => ?_⟩
  · rw [hostAct_wr8 s b hlo hhi, haddr]
  · rw [hostAct_rd8 s hlo hhi, haddr]
    exact readDmem_of_written hb
  · rw [hostAct_rd8 s hlo hhi, haddr]
    exact readDmem_of_unwritten hb

/-! ## The writers of DMEM, RXLEN and RXCRC (20_memory.md R55, R58; 10_state.md R29) -/

theorem exec_dmem_changed {i : Instr} (h : exec i s = .next t) (hm : t.dmem ≠ s.dmem) :
    i ∈ [Instr.varintEnc, .bytesEnc, .stringEnc, .frameBuild] := by
  rcases exec_effect h with ⟨e, _, rfl⟩ | ⟨a, r0, r1, _, rfl⟩ | ⟨r0, r1, addr, d, hi, _, rfl⟩ |
    ⟨out, r1, f, ds, k, e, _, _, _, rfl⟩ | ⟨_, _, _, _, rfl⟩
  case stored => exact hi
  all_goals exact absurd rfl hm

/-- A command writes none of the registers a receive reports in. -/
theorem exec_keeps_receive_report {i : Instr} (h : exec i s = .next t) :
    t.rxErr = s.rxErr ∧ t.rxLen = s.rxLen ∧ t.rxCrc = s.rxCrc := by
  cases exec_effect h <;> subst t <;> exact ⟨rfl, rfl, rfl⟩

@[simp] theorem State.writeReg_dmem (s : State) (w : Word) (r : HostReg) : (s.writeReg w r).dmem = s.dmem := by
  cases r <;> rfl

@[simp] theorem State.writeReg_rxLen (s : State) (w : Word) (r : HostReg) : (s.writeReg w r).rxLen = s.rxLen := by
  cases r <;> rfl

@[simp] theorem State.writeReg_rxCrc (s : State) (w : Word) (r : HostReg) : (s.writeReg w r).rxCrc = s.rxCrc := by
  cases r <;> rfl

theorem hostEffect_dmem_changed {act : HostAction} (he : HostEffect act s t) (hm : t.dmem ≠ s.dmem) :
    (∃ off b, act = .access (.wr8 off b)) ∨
      ∃ w i, act = .access (.wr32 0 w) ∧ decode w = .ok i ∧
        i ∈ [Instr.varintEnc, .bytesEnc, .stringEnc, .frameBuild] := by
  rcases he with ⟨pos, seen, rfl⟩ | ⟨off, b, hact, _, _⟩ | ⟨off, w, r, _, _, _, rfl⟩ | ⟨w, i, hact, hd, ht⟩ |
    ⟨e, _, rfl⟩ | ⟨_, rfl⟩
  case storedByte => exact .inl ⟨off, b, hact⟩
  case wroteReg => exact absurd (s.writeReg_dmem w r) hm
  case issued => exact .inr ⟨w, i, hact, hd, exec_dmem_changed ht hm⟩
  all_goals exact absurd rfl hm

theorem hostEffect_keeps_rxLen_rxCrc {act : HostAction} (he : HostEffect act s t) (hact : act ≠ .reset) :
    t.rxLen = s.rxLen ∧ t.rxCrc = s.rxCrc := by
  rcases he with ⟨pos, seen, rfl⟩ | ⟨off, b, _, _, rfl⟩ | ⟨off, w, r, _, _, _, rfl⟩ | ⟨w, i, _, _, ht⟩ |
    ⟨e, _, rfl⟩ | ⟨hreset, _⟩
  case wroteReg => exact ⟨s.writeReg_rxLen w r, s.writeReg_rxCrc w r⟩
  case issued => exact (exec_keeps_receive_report ht).2
  case wasReset => exact absurd hreset hact
  all_goals exact ⟨rfl, rfl⟩

/-- An RX event changes DMEM, RXLEN and RXCRC only as the byte that ends a receive OK (43_transport.md R188). -/
theorem receiveEffect_delivers_or_keeps {e : Turn} (he : ReceiveEffect e s t) :
    (e = .rxByte ∧ s.rxState = .body ∧ t.rxErr = .ok ∧ t.rxDone = true) ∨
      (t.dmem = s.dmem ∧ t.rxLen = s.rxLen ∧ t.rxCrc = s.rxCrc) := by
  rcases he with ⟨rest, buf, st, L, timer, rfl⟩ | ⟨rest, f, code, _, rfl⟩ | ⟨rest, p, L, rx, hbyte, hbody, rfl⟩
  case delivered => exact .inl ⟨hbyte, hbody, rfl, rfl⟩
  all_goals exact .inr ⟨rfl, rfl, rfl⟩

theorem step_dmem_changed (h : step s = .next t) (hm : t.dmem ≠ s.dmem) :
    (∃ off b, nextHostAction s = some (.access (.wr8 off b))) ∨
      (∃ i ∈ [Instr.varintEnc, .bytesEnc, .stringEnc, .frameBuild], issuesNext i s) ∨
      (s.schedule.head? = some .rxByte ∧ s.rxState = .body ∧ t.rxErr = .ok ∧ t.rxDone = true) := by
  rcases step_effect h with ⟨rest, act, hs, hp, he⟩ | ⟨rest, e, hs, _, _, he⟩ | ⟨rest, _, rfl⟩
  case host =>
    have hnext := nextHostAction_of_host hs hp
    rcases hostEffect_dmem_changed he hm with ⟨off, b, rfl⟩ | ⟨w, i, rfl, hd, hi⟩
    · exact .inl ⟨off, b, hnext⟩
    · exact .inr (.inl ⟨i, hi, w, hnext, hd⟩)
  case receive =>
    rcases receiveEffect_delivers_or_keeps he with ⟨rfl, hend⟩ | ⟨hdmem, _⟩
    · exact .inr (.inr ⟨by simp [hs], hend⟩)
    · exact absurd hdmem hm
  case platform => exact absurd rfl hm

theorem step_rxLen_rxCrc_cases (h : step s = .next t) :
    resetsNext s ∨ (s.schedule.head? = some .rxByte ∧ s.rxState = .body ∧ t.rxErr = .ok ∧ t.rxDone = true) ∨
      (t.rxLen = s.rxLen ∧ t.rxCrc = s.rxCrc) := by
  rcases step_effect h with ⟨rest, act, hs, hp, he⟩ | ⟨rest, e, hs, _, _, he⟩ | ⟨rest, hs, _⟩
  case host =>
    by_cases hact : act = .reset
    · exact .inl (.inr (hact ▸ nextHostAction_of_host hs hp))
    · have hkept := hostEffect_keeps_rxLen_rxCrc he hact
      exact .inr (.inr hkept)
  case receive =>
    rcases receiveEffect_delivers_or_keeps he with ⟨rfl, hend⟩ | ⟨_, hkept⟩
    · exact .inr (.inl ⟨by simp [hs], hend⟩)
    · exact .inr (.inr hkept)
  case platform => exact .inl (.inl (by simp [hs]))

/-- Settles O49: of a step's effects, the named ones alone write DMEM, and only reset and the delivery of a payload
write RXLEN and RXCRC. -/
theorem dmemChangedOnlyBy : Obligations.DmemChangedOnlyBy := by
  intro s t h
  refine ⟨fun hm => ?_, fun hchanged => ?_⟩
  · simpa [or_assoc] using step_dmem_changed h hm
  · rcases step_rxLen_rxCrc_cases h with hreset | hend | ⟨hlen, hcrc⟩
    · exact .inl hreset
    · exact .inr hend
    · rcases hchanged with hne | hne
      · exact absurd hlen hne
      · exact absurd hcrc hne

end Sys2Proof.Machine
end

section
/-! SUPPORT. The opcode map and the host's branches (30_encoding.md sections 1 and 2): a command's encoding selects its
own row, so every word with its OPC decodes to it. -/

namespace Sys2Proof

@[simp] theorem opcField_encode (i : Instr) : opcField (encode i) = opcode i :=
  BitVec.setWidth_setWidth_of_le _ (by decide)

/-- Each command's encoding meets the mask and pattern of its own row first (30_encoding.md R72). -/
@[simp] theorem decode_encode (i : Instr) : decode (encode i) = .ok i := by cases i <;> rfl

/-- Bits 31:8 are ignored (30_encoding.md R70, R71). -/
theorem decode_of_opcField {i : Instr} {w : Word} (h : opcField w = opcode i) : decode w = .ok i :=
  (decode_eq_of_opc (h.trans (opcField_encode i).symm)).trans (decode_encode i)

end Sys2Proof

namespace Sys2Proof.Machine

/-- Settles O1: words with the same OPC decode alike, and the encoding itself decodes by its row. -/
theorem encodeThenDecode : Obligations.EncodeThenDecode := by
  intro i w _
  exact ⟨fun hopc => decode_of_opcField (hopc.trans (opcField_encode i)), decode_encode i⟩

/-- Settles O2: the OPC field of each word is the command's. -/
theorem sampleWordsDecode : Obligations.SampleWordsDecode :=
  ⟨decode_of_opcField rfl, decode_of_opcField rfl, decode_of_opcField rfl, decode_of_opcField rfl,
    decode_of_opcField rfl, decode_of_opcField rfl, decode_of_opcField rfl, decode_of_opcField rfl⟩

/-! ## The host's branches (30_encoding.md R78) -/

theorem hostBranch_of_lastRead {s : State} {r : HostReg} {v : Word} (h : lastRead (regOffset r) s.observed = some v)
    (bit : Nat) (wanted : Bool) (target : Nat) :
    hostBranch r bit wanted target s =
      .next (if v.getLsbD bit = wanted then { s with hostPos := target } else s) := by
  simp [hostBranch, h]

/-- Settles O57: `bz` and `bnz` are the one branch that wants the bit 0 or 1. -/
theorem hostBranches : Obligations.HostBranches := by
  intro s r bit target
  refine ⟨rfl, fun v hv => ?_⟩
  have hbz : hostAct s (.bz r bit target) = _ := hostBranch_of_lastRead hv bit false target
  have hbnz : hostAct s (.bnz r bit target) = _ := hostBranch_of_lastRead hv bit true target
  rw [hbz, hbnz]
  exact ⟨fun hbit => by simp [hbit], fun hbit => by simp [hbit]⟩

end Sys2Proof.Machine
end

section
/-! SUPPORT. Little-endian pairs and the frame layout, field by field (00_scope.md R13; 30_encoding.md section 3). -/

namespace Sys2Proof.Machine

/-! ## Little-endian pairs (00_scope.md R13) -/

@[simp] theorem fromLe16_extractLsb' (v : Half) : fromLe16 (v.extractLsb' 0 8) (v.extractLsb' 8 8) = v := by
  apply BitVec.eq_of_toNat_eq
  simp only [fromLe16_toNat, BitVec.extractLsb'_toNat, Nat.shiftRight_eq_div_pow]
  omega

@[simp] theorem le16_fromLe16 (lo hi : Byte) : le16 (fromLe16 lo hi) = [lo, hi] := by
  simp only [le16, List.cons.injEq, and_true, ← BitVec.toNat_inj, BitVec.extractLsb'_toNat, fromLe16_toNat,
    Nat.shiftRight_eq_div_pow]
  omega

/-! ## The frame layout (30_encoding.md R80, R82) -/

/-- The fields of the frame layout with any values (R80). -/
structure FrameFields where
  start : Byte
  version : Byte
  lenLo : Byte
  lenHi : Byte
  payload : List Byte
  crcLo : Byte
  crcHi : Byte
  last : Byte

namespace FrameFields

variable (x : FrameFields)

/-- The fields in the layout's order. -/
def bytes : List Byte :=
  x.start :: x.version :: x.lenLo :: x.lenHi :: (x.payload ++ [x.crcLo, x.crcHi, x.last])

/-- The length field declares the payload that stands there. -/
def fits : Prop := (fromLe16 x.lenLo x.lenHi).toNat = x.payload.length

@[simp] theorem length_bytes : x.bytes.length = 7 + x.payload.length := by
  simp [bytes]
  omega

@[simp] theorem byteNat_bytes_zero : byteNat x.bytes 0 = x.start.toNat := rfl

@[simp] theorem byteNat_bytes_one : byteNat x.bytes 1 = x.version.toNat := rfl

@[simp] theorem declaredLength_bytes : declaredLength x.bytes = (fromLe16 x.lenLo x.lenHi).toNat :=
  (fromLe16_toNat _ _).symm

theorem byteNat_bytes_trailer (k : Nat) :
    byteNat x.bytes (k + 4 + x.payload.length) = byteNat [x.crcLo, x.crcHi, x.last] k := by
  have hindex : k + 4 + x.payload.length = x.payload.length + k + 4 := by omega
  simp [byteNat, bytes, hindex, List.getElem?_append_right]

variable {x}

theorem crcField_bytes (h : x.fits) : crcField x.bytes = (fromLe16 x.crcLo x.crcHi).toNat := by
  rw [crcField, declaredLength_bytes, h, fromLe16_toNat]
  exact congrArg₂ (· + 256 * ·) (x.byteNat_bytes_trailer 0) (x.byteNat_bytes_trailer 1)

theorem rangeChecksum_bytes (h : x.fits) :
    rangeChecksum x.bytes = (checksum (x.version :: x.lenLo :: x.lenHi :: x.payload)).toNat := by
  rw [rangeChecksum, declaredLength_bytes, h]
  simp [bytes, Nat.add_comm 3]

theorem byteNat_bytes_last (h : x.fits) : byteNat x.bytes (6 + declaredLength x.bytes) = x.last.toNat := by
  rw [declaredLength_bytes, h]
  exact x.byteNat_bytes_trailer 2

/-- The clauses of R82, field by field. -/
theorem wellFormedFrame_bytes_iff :
    wellFormedFrame x.bytes ↔
      x.start = 0xAA#8 ∧ x.version = 0x01#8 ∧ (1 ≤ x.payload.length ∧ x.payload.length ≤ 1024) ∧ x.fits ∧
        fromLe16 x.crcLo x.crcHi = checksum (x.version :: x.lenLo :: x.lenHi :: x.payload) ∧ x.last = 0x55#8 := by
  have hlength : x.bytes.length = 7 + declaredLength x.bytes ↔ x.fits := by
    rw [length_bytes, declaredLength_bytes, fits]
    omega
  rw [wellFormedFrame, hlength]
  by_cases h : x.fits
  · rw [crcField_bytes h, rangeChecksum_bytes h, byteNat_bytes_last h, length_bytes, declaredLength_bytes, h]
    simp [← BitVec.toNat_inj, h]
  · simp [h]

end FrameFields

/-- The fields FRAME_BUILD gives a payload (42_frame.md R160). -/
def frameFields (p : List Byte) : FrameFields where
  start := 0xAA#8
  version := 0x01#8
  lenLo := (BitVec.ofNat 16 p.length).extractLsb' 0 8
  lenHi := (BitVec.ofNat 16 p.length).extractLsb' 8 8
  payload := p
  crcLo := (checksum (frameBody p)).extractLsb' 0 8
  crcHi := (checksum (frameBody p)).extractLsb' 8 8
  last := 0x55#8

theorem bytes_frameFields (p : List Byte) : (frameFields p).bytes = frame p := by
  simp [FrameFields.bytes, frameFields, frame, frameBody, le16]

theorem frame_wellFormed {p : List Byte} (hlo : 1 ≤ p.length) (hhi : p.length ≤ 1024) : wellFormedFrame (frame p) := by
  rw [← bytes_frameFields, FrameFields.wellFormedFrame_bytes_iff]
  refine ⟨rfl, rfl, ⟨hlo, hhi⟩, ?_, fromLe16_extractLsb' _, rfl⟩
  rw [FrameFields.fits, frameFields, fromLe16_extractLsb']
  exact Nat.mod_eq_of_lt (by omega)

/-- Seven bytes are enough to name the fields. -/
theorem exists_bytes_eq {f : List Byte} (h : 7 ≤ f.length) : ∃ x : FrameFields, x.bytes = f := by
  obtain ⟨b0, b1, b2, b3, rest, rfl⟩ : ∃ b0 b1 b2 b3 rest, f = b0 :: b1 :: b2 :: b3 :: rest := by
    match f, h with
    | b0 :: b1 :: b2 :: b3 :: rest, _ => exact ⟨b0, b1, b2, b3, rest, rfl⟩
  have htail : (rest.drop (rest.length - 3)).length = 3 := by
    simp only [List.length_cons] at h
    simp only [List.length_drop]
    omega
  obtain ⟨c0, c1, e, hdrop⟩ := List.length_eq_three.1 htail
  refine ⟨⟨b0, b1, b2, b3, rest.take (rest.length - 3), c0, c1, e⟩, ?_⟩
  simp [FrameFields.bytes, ← hdrop]

theorem FrameFields.bytes_eq_frame {x : FrameFields} (h : wellFormedFrame x.bytes) : x.bytes = frame x.payload := by
  obtain ⟨hstart, hversion, -, hfits, hcrc, hlast⟩ := wellFormedFrame_bytes_iff.1 h
  have hlen : BitVec.ofNat 16 x.payload.length = fromLe16 x.lenLo x.lenHi := by
    rw [← hfits, BitVec.ofNat_toNat, BitVec.setWidth_eq]
  have hbody : frameBody x.payload = x.version :: x.lenLo :: x.lenHi :: x.payload := by
    simp [frameBody, hlen, hversion]
  simp [frame, hbody, ← hcrc, bytes, hstart, hlast]

/-- Settles O29: the clauses determine every field but the payload, as FRAME_BUILD sets it. -/
theorem builtFramesAreTheWellFormed : Obligations.BuiltFramesAreTheWellFormed := by
  intro f
  constructor
  · intro h
    obtain ⟨x, rfl⟩ := exists_bytes_eq h.1
    obtain ⟨-, -, ⟨hlo, hhi⟩, -⟩ := FrameFields.wellFormedFrame_bytes_iff.1 h
    exact ⟨x.payload, hlo, hhi, x.bytes_eq_frame h⟩
  · rintro ⟨p, hlo, hhi, rfl⟩
    exact frame_wellFormed hlo hhi

end Sys2Proof.Machine
end

section
/-! SUPPORT. The varint a value is encoded as, and its decoder (30_encoding.md section 4; 41_varint.md R130 to R134). -/

namespace Sys2Proof.Machine

/-! ## The groups of a varint -/

theorem toNat_lastGroup (b : Byte) : (b &&& 0x7F#8).toNat = b.toNat % 128 :=
  (BitVec.toNat_and ..).trans (Nat.and_two_pow_sub_one_eq_mod b.toNat 7)

theorem getLsbD_lastGroup (b : Byte) : (b &&& 0x7F#8).getLsbD 7 = false := by simp

theorem toNat_continuedGroup (b : Byte) : (0x80#8 ||| (b &&& 0x7F#8)).toNat % 128 = b.toNat % 128 := by
  rw [← toNat_lastGroup, ← toNat_lastGroup]
  congr 1
  ext i hi
  interval_cases i <;> simp

theorem getLsbD_continuedGroup (b : Byte) : (0x80#8 ||| b).getLsbD 7 = true := by simp

theorem uvarintValue_cons (b : Byte) (h : List Byte) :
    uvarintValue (b :: h) = b.toNat % 128 + 128 * uvarintValue h := rfl

theorem uvarintShape_cons {h : List Byte} (hs : uvarintShape h = true) (b : Byte) :
    uvarintShape (b :: h) = b.getLsbD 7 := by
  cases h with
  | nil => cases hs
  | cons c h => exact (congrArg (b.getLsbD 7 && ·) hs).trans (Bool.and_true _)

/-! ## The decoder on a varint (41_varint.md R133) -/

theorem decodeUvarintFrom_continued {value i : Nat} {b : Byte} (hi : i < 5) (hb : b.getLsbD 7 = true)
    (rest : List (Option Byte)) :
    decodeUvarintFrom value i (some b :: rest) =
      decodeUvarintFrom (value + b.toNat % 128 * 2 ^ (7 * i)) (i + 1) rest := by
  rw [decodeUvarintFrom, if_neg hi.ne, useByte_some, ok_bind, if_pos hb]

theorem decodeUvarintFrom_last {value i : Nat} {b : Byte} (hi : i < 5) (hb : b.getLsbD 7 = false)
    (hv : value + b.toNat % 128 * 2 ^ (7 * i) < 2 ^ 32) (rest : List (Option Byte)) :
    decodeUvarintFrom value i (some b :: rest) = .ok (value + b.toNat % 128 * 2 ^ (7 * i), i + 1) := by
  rw [decodeUvarintFrom, if_neg hi.ne, useByte_some, ok_bind, if_neg (by rw [hb]; decide), if_neg hv.not_ge]
  rfl

/-- The loop with `i` bytes taken reads a varint of the bytes it has left, and nothing after it. -/
theorem decodeUvarintFrom_of_shape {h : List Byte} (hs : uvarintShape h = true) {value i : Nat}
    (hi : i + h.length ≤ 5) (hv : value + uvarintValue h * 2 ^ (7 * i) < 2 ^ 32) (rest : List (Option Byte)) :
    decodeUvarintFrom value i (h.map some ++ rest) = .ok (value + uvarintValue h * 2 ^ (7 * i), i + h.length) := by
  induction h generalizing value i with
  | nil => cases hs
  | cons b h ih =>
    have hi' : i < 5 := by
      simp only [List.length_cons] at hi
      omega
    cases h with
    | nil =>
      have hb : b.getLsbD 7 = false := by simpa [uvarintShape] using hs
      exact decodeUvarintFrom_last hi' hb hv rest
    | cons c h =>
      obtain ⟨hb, hs⟩ : b.getLsbD 7 = true ∧ uvarintShape (c :: h) = true := by
        simpa only [uvarintShape, Bool.and_eq_true] using hs
      have hsum : value + uvarintValue (b :: c :: h) * 2 ^ (7 * i) =
          value + b.toNat % 128 * 2 ^ (7 * i) + uvarintValue (c :: h) * 2 ^ (7 * (i + 1)) := by
        rw [uvarintValue_cons b]
        ring
      rw [hsum] at hv ⊢
      have hlen : i + (b :: c :: h).length = i + 1 + (c :: h).length := by
        simp only [List.length_cons]
        omega
      rw [hlen] at hi ⊢
      exact (decodeUvarintFrom_continued hi' hb _).trans (ih hs hi hv)

/-- The decoder reads an accepted varint, whatever follows it. -/
theorem decodeUvarint_of_isUvarint {h : List Byte} (hu : isUvarint h) (rest : List (Option Byte)) :
    decodeUvarint (h.map some ++ rest) = .ok (uvarintValue h, h.length) := by
  obtain ⟨hs, hlen, hv⟩ := hu
  simpa [decodeUvarint] using decodeUvarintFrom_of_shape hs (value := 0) (i := 0) (by omega) (by omega) rest

/-! ## The encoder gives a varint of its value (41_varint.md R130) -/

theorem toNat_ushiftRight_seven (v : Word) : (v >>> 7).toNat = v.toNat / 128 := by
  simp [Nat.shiftRight_eq_div_pow]

theorem uvarintGroups_of_shift_eq_zero {v : Word} (h : v >>> 7 = 0#32) (k : Nat) :
    uvarintGroups (k + 1) v = [v.setWidth 8 &&& 0x7F#8] := if_pos h

theorem uvarintGroups_of_shift_ne_zero {v : Word} (h : v >>> 7 ≠ 0#32) (k : Nat) :
    uvarintGroups (k + 1) v = (0x80#8 ||| (v.setWidth 8 &&& 0x7F#8)) :: uvarintGroups k (v >>> 7) := if_neg h

theorem length_uvarintGroups_le (k : Nat) (v : Word) : (uvarintGroups k v).length ≤ k := by
  induction k generalizing v with
  | zero => simp [uvarintGroups]
  | succ k ih =>
    by_cases h : v >>> 7 = 0#32
    · simp [uvarintGroups_of_shift_eq_zero h]
    · simpa [uvarintGroups_of_shift_ne_zero h] using ih _

/-- `k` groups of seven bits hold a value below `2 ^ (7 * k)`. -/
theorem uvarintGroups_spec {k : Nat} (hk : 0 < k) {v : Word} (hv : v.toNat < 2 ^ (7 * k)) :
    uvarintShape (uvarintGroups k v) = true ∧ uvarintValue (uvarintGroups k v) = v.toNat := by
  induction k generalizing v with
  | zero => exact absurd hk (by simp)
  | succ k ih =>
    have hshift := toNat_ushiftRight_seven v
    have hlow : (v.setWidth 8 : Byte).toNat % 128 = v.toNat % 128 := by
      rw [BitVec.toNat_setWidth]
      omega
    by_cases h : v >>> 7 = 0#32
    · have hzero : v.toNat / 128 = 0 := by rw [← hshift, h]; rfl
      rw [uvarintGroups_of_shift_eq_zero h, uvarintValue_cons, uvarintValue, toNat_lastGroup]
      refine ⟨congrArg not (getLsbD_lastGroup _), ?_⟩
      omega
    · have hne : (v >>> 7).toNat ≠ 0 := fun h0 => h (BitVec.eq_of_toNat_eq h0)
      have hpow : 2 ^ (7 * (k + 1)) = 128 * 2 ^ (7 * k) := by ring
      have hk' : 0 < k := by
        refine Nat.pos_of_ne_zero ?_
        rintro rfl
        omega
      obtain ⟨hs, hval⟩ := ih hk' (v := v >>> 7) (by omega)
      rw [uvarintGroups_of_shift_ne_zero h, uvarintShape_cons hs, uvarintValue_cons, hval, toNat_continuedGroup]
      refine ⟨getLsbD_continuedGroup _, ?_⟩
      omega

theorem isUvarint_encodeUvarint (v : Word) : isUvarint (encodeUvarint v) := by
  have hv := v.isLt
  obtain ⟨hs, hval⟩ := uvarintGroups_spec (k := 5) (v := v) (by omega) (by omega)
  exact ⟨hs, length_uvarintGroups_le 5 v, hval.trans_lt hv⟩

theorem uvarintValue_encodeUvarint (v : Word) : uvarintValue (encodeUvarint v) = v.toNat := by
  have hv := v.isLt
  exact (uvarintGroups_spec (k := 5) (by omega) (by omega)).2

theorem decodeUvarint_encodeUvarint (v : Word) (rest : List (Option Byte)) :
    decodeUvarint ((encodeUvarint v).map some ++ rest) = .ok (v.toNat, (encodeUvarint v).length) := by
  rw [decodeUvarint_of_isUvarint (isUvarint_encodeUvarint v), uvarintValue_encodeUvarint]

theorem decodeUvarint_encodeBytes {d : List Byte} (hd : d.length < 2 ^ 32) (rest : List (Option Byte)) :
    decodeUvarint ((encodeBytes d).map some ++ rest) =
      .ok (d.length, (encodeUvarint (BitVec.ofNat 32 d.length)).length) := by
  rw [encodeBytes, List.map_append, List.append_assoc, decodeUvarint_encodeUvarint, BitVec.toNat_ofNat,
    Nat.mod_eq_of_lt hd]

theorem length_encodeBytes (d : List Byte) :
    (encodeBytes d).length = (encodeUvarint (BitVec.ofNat 32 d.length)).length + d.length :=
  List.length_append

/-- A sequence behind its length is decoded whatever follows it (41_varint.md R131, R134). -/
theorem decodeBytes_encodeBytes {d : List Byte} (hd : d.length < 2 ^ 32) (rest : List (Option Byte)) :
    decodeBytes ((encodeBytes d).map some ++ rest) = .ok (d.length, (encodeBytes d).length) := by
  have hroom : ¬ ((encodeBytes d).map some ++ rest).length - (encodeUvarint (BitVec.ofNat 32 d.length)).length
      < d.length := by
    rw [List.length_append, List.length_map, length_encodeBytes]
    omega
  simp only [decodeBytes, decodeUvarint_encodeBytes hd, ok_bind, decide_eq_false hroom, raiseIf_false, pure_ok,
    length_encodeBytes]

end Sys2Proof.Machine
end

section
/-! SUPPORT. The consumer's Message codec (30_encoding.md section 6). -/

namespace Sys2Proof.Machine

theorem modeOf_modeCode (m : Mode) : modeOf (modeCode m) = some m := by cases m <;> rfl

theorem takeData_encodeBytes {d : List Byte} (hd : d.length < 2 ^ 32) : takeData (encodeBytes d) = .ok (d, []) := by
  have hdecode := decodeBytes_encodeBytes hd []
  rw [List.append_nil] at hdecode
  rw [takeData, hdecode]
  simp [encodeBytes]

theorem append_extractLsb' (v : Word) :
    v.extractLsb' 24 8 ++ v.extractLsb' 16 8 ++ v.extractLsb' 8 8 ++ v.extractLsb' 0 8 = v := by
  apply BitVec.eq_of_toNat_eq
  simp only [toNat_append_eq_add, BitVec.extractLsb'_toNat, Nat.shiftRight_eq_div_pow]
  omega

theorem consumer_ok_bind {α β : Type} (a : α) (f : α → Except ConsumerError β) : (Except.ok a >>= f) = f a := rfl

/-! ## The variants whose fields are looked up or behind a length (30_encoding.md R96 to R98) -/

theorem decodeFields_setMode (m : Mode) : decodeFields 0#8 [modeCode m] = .ok (.setMode m) := by
  simp [decodeFields, takeField, consumer_ok_bind, modeOf_modeCode, endOfPayload]

theorem decodeFields_i2cWrite (addr : Byte) {d : List Byte} (hd : d.length < 2 ^ 32) :
    decodeFields 3#8 (addr :: encodeBytes d) = .ok (.i2cWrite addr d) := by
  simp [decodeFields, takeField, consumer_ok_bind, takeData_encodeBytes hd, endOfPayload]

theorem decodeFields_spiTransfer {d : List Byte} (hd : d.length < 2 ^ 32) :
    decodeFields 7#8 (encodeBytes d) = .ok (.spiTransfer d) := by
  simp [decodeFields, consumer_ok_bind, takeData_encodeBytes hd, endOfPayload]

theorem decodeFields_uartWrite {d : List Byte} (hd : d.length < 2 ^ 32) :
    decodeFields 8#8 (encodeBytes d) = .ok (.uartWrite d) := by
  simp [decodeFields, consumer_ok_bind, takeData_encodeBytes hd, endOfPayload]

theorem decodeFields_uartRead (n : Half) : decodeFields 9#8 (le16 n) = .ok (.uartRead n) :=
  congrArg (fun v => Except.ok (Message.uartRead v)) (fromLe16_extractLsb' n)

theorem decodeFields_uartConfig (v : Word) : decodeFields 10#8 (le32 v) = .ok (.uartConfig v) :=
  congrArg (fun w => Except.ok (Message.uartConfig w)) (append_extractLsb' v)

/-- Settles O58: the discriminant selects the variant, and its fields are read back with nothing left over. -/
theorem messageRoundTrip : Obligations.MessageRoundTrip := by
  intro m hm
  cases m with
  | setMode m => exact decodeFields_setMode m
  | i2cWrite addr d => exact decodeFields_i2cWrite addr hm
  | spiTransfer d => exact decodeFields_spiTransfer hm
  | uartWrite d => exact decodeFields_uartWrite hm
  | uartRead n => exact decodeFields_uartRead n
  | uartConfig v => exact decodeFields_uartConfig v
  | getMode | i2cScan | i2cRead | i2cReadRegister | i2cWriteRegister => rfl

end Sys2Proof.Machine
end

section
/-! SUPPORT. The CRC unit (40_crc.md): the bits of the register, its right-shifting form, the commands of the unit, and
ACC left alone by every other checksum. -/

namespace Sys2Proof.Machine

/-! ## Bit reversal (00_scope.md R16) -/

theorem getLsbD_rev16 (v : Half) {i : Nat} (hi : i < 16) : (rev16 v).getLsbD i = v.getLsbD (15 - i) := by
  rw [rev16, BitVec.getLsbD_reverse, BitVec.getMsbD_eq_getLsbD, decide_eq_true hi, Bool.true_and]

theorem rev16_xor (v w : Half) : rev16 (v ^^^ w) = rev16 v ^^^ rev16 w := by
  apply BitVec.eq_of_getLsbD_eq
  intro i hi
  simp [getLsbD_rev16 _ hi]

theorem rev16_shiftLeft_one (v : Half) : rev16 (v <<< 1) = rev16 v >>> 1 := by
  apply BitVec.eq_of_getLsbD_eq
  intro i hi
  rw [getLsbD_rev16 _ hi, BitVec.getLsbD_ushiftRight, BitVec.getLsbD_shiftLeft]
  by_cases hlast : i = 15
  · subst hlast
    simp [rev16]
  · have hinner : ¬ 15 - i < 1 := by omega
    rw [getLsbD_rev16 _ (by omega : 1 + i < 16), Nat.add_comm 1 i, ← Nat.sub_sub]
    simp [hinner, show 15 - i < 16 by omega]

/-- R110 feeds a byte bit-reversed into the upper half of the register, R113 as it is into the lower half. -/
theorem rev16_upper_rev8 (b : Byte) : rev16 ((rev8 b).setWidth 16 <<< 8) = b.setWidth 16 := by
  apply BitVec.eq_of_getLsbD_eq
  intro i hi
  rw [getLsbD_rev16 _ hi]
  simp only [rev8, BitVec.getLsbD_shiftLeft, BitVec.getLsbD_setWidth, BitVec.getLsbD_reverse,
    BitVec.getMsbD_eq_getLsbD, hi]
  by_cases hlow : i < 8
  · simp [show ¬ 15 - i < 8 by omega, show 15 - i - 8 < 8 by omega, show 15 - i < 16 by omega,
      show 15 - i - 8 < 16 by omega, show 7 - (15 - i - 8) = i by omega]
  · simp [show 15 - i < 8 by omega, BitVec.getLsbD_of_ge b i (by omega)]

/-! ## The right-shifting form (40_crc.md R113) -/

theorem crcShiftRight_rev16 (r : Half) : crcShiftRight (rev16 r) = rev16 (crcShift r) := by
  have hpoly : rev16 Config.crcPoly = 0x8408#16 := by decide
  have hbit : (rev16 r).getLsbD 0 = r.getLsbD 15 := getLsbD_rev16 r (by decide)
  simp only [crcShiftRight, crcShift, hbit]
  split
  · rw [rev16_xor, rev16_shiftLeft_one, hpoly]
  · rw [rev16_shiftLeft_one]

theorem crcShifts_eq_iterate (n : Nat) (r : Half) : crcShifts n r = crcShift^[n] r := by
  induction n generalizing r with
  | zero => rfl
  | succ n ih => exact ih (crcShift r)

theorem repeat_crcShiftRight_rev16 (n : Nat) (r : Half) :
    Nat.repeat crcShiftRight n (rev16 r) = rev16 (crcShifts n r) := by
  rw [crcShifts_eq_iterate]
  induction n with
  | zero => rfl
  | succ n ih =>
    calc crcShiftRight (Nat.repeat crcShiftRight n (rev16 r))
      _ = crcShiftRight (rev16 (crcShift^[n] r)) := by rw [ih]
      _ = rev16 (crcShift (crcShift^[n] r)) := crcShiftRight_rev16 _
      _ = rev16 (crcShift^[n + 1] r) := by rw [Function.iterate_succ_apply']

theorem crcStepRight_rev16 (r : Half) (b : Byte) : crcStepRight (rev16 r) b = rev16 (crcStep r b) := by
  rw [crcStep, ← repeat_crcShiftRight_rev16, rev16_xor, rev16_upper_rev8]
  rfl

theorem foldl_crcStepRight_rev16 (d : List Byte) (r : Half) :
    d.foldl crcStepRight (rev16 r) = rev16 (d.foldl crcStep r) := by
  induction d generalizing r with
  | nil => rfl
  | cons b d ih => rw [List.foldl_cons, List.foldl_cons, crcStepRight_rev16, ih]

/-- Settles O19: one shift to the right is one shift to the left read backwards, so the registers stay reversals of
each other from 0xFFFF on, which is its own reversal. -/
theorem crcRightShiftForm : Obligations.CrcRightShiftForm := by
  have hregister (d : List Byte) : d.foldl crcStepRight 0xFFFF#16 = rev16 (d.foldl crcStep 0xFFFF#16) := by
    have hinit : rev16 0xFFFF#16 = 0xFFFF#16 := by decide
    rw [← foldl_crcStepRight_rev16, hinit]
  refine ⟨fun d => ?_, hregister⟩
  rw [checksumRight, hregister]
  rfl

/-- Settles O18: the machine's own `checksum`, evaluated on the nine bytes. -/
theorem crcCheckValue : Obligations.CrcCheckValue := by
  unfold Obligations.CrcCheckValue
  decide +kernel

/-! ## The commands of the unit (40_crc.md R115 to R118) -/

theorem hasOpcode_opcode (i : Instr) : hasOpcode i (opcode i) := fun _ h => decode_of_opcField h

theorem busyFirst_exec (i : Instr) : busyFirst i := fun _ h => exec_busy i h

section
variable {s : State} (h : s.rxArmed = false)
include h

theorem exec_crcInit : exec .crcInit s = .next { s with acc := 0xFFFF#16, err := .ok } := issue_free _ h

theorem exec_crcByte : exec .crcByte s = .next { s with acc := crcStep s.acc (byteOperand s), err := .ok } :=
  issue_free _ h

theorem exec_crcFinal : exec .crcFinal s = .next { s with res0 := (crcFinal s.acc).setWidth 32, err := .ok } :=
  issue_free _ h

theorem exec_crcBlock_outOfRange (hr : 4096 < srcOperand s + countOperand s) :
    exec .crcBlock s = .next { s with err := .addressRange } := by
  refine (issue_free _ h).trans ?_
  rw [checkRange_of_lt hr]
  rfl

theorem exec_crcBlock {d : List Byte} (hr : srcInRange s) (hd : sourceIs s d) :
    exec .crcBlock s = .next { s with res0 := (checksum d).setWidth 32, err := .ok } := by
  obtain ⟨hlen, hbytes⟩ := hd
  refine (issue_free _ h).trans ?_
  rw [checkRange_of_le hr, ← hlen, Memory.readBytes_eq_map_some _ _ _ hbytes, ok_bind, useAll_map_some]
  rfl

end

/-- Settles O12: CRC_INIT has no check to pass but Busy. -/
theorem crcInitSetsAcc : Obligations.CrcInitSetsAcc :=
  ⟨hasOpcode_opcode .crcInit, busyFirst_exec .crcInit, fun _ h => exec_crcInit h⟩

/-- The byte operand is ARG0 modulo 256 (30_encoding.md R74). -/
theorem byteOperand_eq_of_toNat {s : State} {b : Byte} (h : s.arg0.toNat % 256 = b.toNat) : byteOperand s = b :=
  BitVec.eq_of_toNat_eq ((BitVec.toNat_setWidth _ _).trans h)

/-- Settles O13: the byte named by ARG0 modulo 256 is the byte operand. -/
theorem crcByteStepsAcc : Obligations.CrcByteStepsAcc := by
  refine ⟨hasOpcode_opcode .crcByte, busyFirst_exec .crcByte, fun s b h hb => ?_⟩
  rw [exec_crcByte h, byteOperand_eq_of_toNat hb]

theorem getLsbD_crcFinal (r : Half) {i : Nat} (hi : i < 16) : (crcFinal r).getLsbD i = !r.getLsbD (15 - i) := by
  have hones : (0xFFFF#16).getLsbD i = true := BitVec.getLsbD_allOnes.trans (decide_eq_true hi)
  rw [crcFinal, BitVec.getLsbD_xor, getLsbD_rev16 r hi, hones, Bool.xor_true]

/-- Settles O14: RES0 is `crc_final(ACC)`, widened. -/
theorem crcFinalReadsChecksum : Obligations.CrcFinalReadsChecksum := by
  refine ⟨hasOpcode_opcode .crcFinal, busyFirst_exec .crcFinal, fun s h => ⟨_, exec_crcFinal h, fun i hi => ?_,
    fun i hi => ?_⟩⟩
  · rw [BitVec.getLsbD_setWidth, getLsbD_crcFinal s.acc hi, decide_eq_true (by omega : i < 32), Bool.true_and]
  · rw [BitVec.getLsbD_setWidth, BitVec.getLsbD_of_ge _ i hi, Bool.and_false]

/-- Settles O15: the range is checked before a byte is used, and a source that is written everywhere is used whole. -/
theorem crcBlockChecksum : Obligations.CrcBlockChecksum :=
  ⟨hasOpcode_opcode .crcBlock, busyFirst_exec .crcBlock, fun _ h =>
    ⟨exec_crcBlock_outOfRange h, fun _ hr hd => exec_crcBlock h hr hd⟩⟩

/-! ## A checksum over the commands (40_crc.md R119) -/

/-- The state after the host has written a word to ARG0 and CRC_BYTE has ended. -/
def State.fed (u : State) (w : Word) : State :=
  { u with arg0 := w, acc := crcStep u.acc (w.setWidth 8), err := .ok }

/-- With no receive armed every CRC_BYTE ends. `feed` issues it with a word in ARG0, from a next state. -/
theorem foldl_crcByte {feed : Host.Outcome State Fault Refusal → Word → Host.Outcome State Fault Refusal}
    (hfeed : ∀ u w, feed (.next u) w = exec .crcByte { u with arg0 := w }) (ws : List Word) {u : State}
    (h : u.rxArmed = false) : ws.foldl feed (.next u) = .next (ws.foldl State.fed u) := by
  induction ws generalizing u with
  | nil => rfl
  | cons w ws ih =>
    have hbyte : exec .crcByte { u with arg0 := w } = .next (u.fed w) := exec_crcByte h
    rw [List.foldl_cons, List.foldl_cons, hfeed, hbyte]
    exact ih h

theorem foldl_fed_acc (ws : List Word) (u : State) :
    (ws.foldl State.fed u).acc = (ws.map fun w => w.setWidth 8).foldl crcStep u.acc := by
  induction ws generalizing u with
  | nil => rfl
  | cons w ws ih => exact ih (u.fed w)

theorem foldl_fed_frame (ws : List Word) (u : State) :
    (ws.foldl State.fed u).dmem = u.dmem ∧ (ws.foldl State.fed u).rxArmed = u.rxArmed := by
  induction ws generalizing u with
  | nil => exact ⟨rfl, rfl⟩
  | cons w ws ih => exact ih (u.fed w)

/-- Settles O17: CRC_INIT puts the start value of `checksum` into ACC, each CRC_BYTE takes a low byte, and CRC_FINAL
reads ACC out. -/
theorem crcByteSequence : Obligations.CrcByteSequence := by
  intro ws s h
  obtain ⟨hdmem, hfree⟩ := foldl_fed_frame ws { s with acc := 0xFFFF#16, err := .ok }
  have hacc := foldl_fed_acc ws { s with acc := 0xFFFF#16, err := .ok }
  refine ⟨_, _, _, exec_crcInit h, foldl_crcByte (fun _ _ => rfl) ws h, exec_crcFinal (hfree.trans h), ?_, hacc, hdmem,
    rfl⟩
  exact congrArg (fun r => (crcFinal r).setWidth 32) hacc

/-! ## ACC left alone (40_crc.md R114) -/

/-- A command whose pseudocode computes the same with another ACC, but for ACC itself, is issued to the same outcome
with that ACC. -/
theorem issue_withAcc (a : Half) (s : State) {body body' : Except Stop State}
    (hb : body' = (fun t => { t with acc := a }) <$> body) :
    issue { s with acc := a } body' = withAcc a (issue s body) := by
  subst hb
  unfold issue
  split
  · rfl
  · match body with
    | .ok t => rfl
    | .error (.raise e) => rfl
    | .error (.fault f) => rfl

/-- None of these commands reads ACC, and each builds its next state in its last line (`map_bind` goes there). -/
theorem exec_withAcc (a : Half) (s : State) {i : Instr} (hi : i ∈ [Instr.crcBlock, .frameBuild, .frameParse]) :
    exec i { s with acc := a } = withAcc a (exec i s) := by
  simp only [List.mem_cons, List.not_mem_nil, or_false] at hi
  rcases hi with rfl | rfl | rfl
  all_goals
    refine issue_withAcc a s ?_
    simp only [map_bind]
    rfl

theorem finishFrame_withAcc (a : Half) (s : State) (f : List Byte) :
    finishFrame { s with acc := a } f = withAcc a (finishFrame s f) := by
  unfold finishFrame
  split <;> rfl

theorem takeRxByte_withAcc (a : Half) (s : State) (b : Byte) :
    takeRxByte { s with acc := a } b = withAcc a (takeRxByte s b) := by
  simp only [takeRxByte]
  split
  next => rfl
  next =>
    unfold rxByteWaitStart
    split <;> rfl
  next =>
    simp only [rxByteHeader]
    split
    · split <;> rfl
    · rfl
  next =>
    simp only [rxByteBody]
    split
    · exact finishFrame_withAcc a _ _
    · rfl

theorem rxByteEvent_withAcc (a : Half) (s : State) :
    rxByteEvent { s with acc := a } = withAcc a (rxByteEvent s) := by
  simp only [rxByteEvent]
  split
  next b rest _ _ => exact takeRxByte_withAcc a { s with rxIn := rest } b
  next => rfl

/-- Settles O16: the outcomes agree but for ACC, branch by branch; that ACC is not written is `exec_acc_changed` and
`receiveEffect_acc`, of the whole machine. -/
theorem accIsolation : Obligations.AccIsolation := by
  refine ⟨fun s a i hi => exec_withAcc a s hi, fun s a => rxByteEvent_withAcc a s, ?_⟩
  rintro s t (⟨i, hi, ht⟩ | ht)
  · by_contra hacc
    rcases exec_acc_changed ht hacc with rfl | rfl <;> simp at hi
  · exact receiveEffect_acc (receive_effect (.inl rfl) ht)

end Sys2Proof.Machine
end

section
/-! SUPPORT. Well-formed UTF-8 (30_encoding.md R90; 41_varint.md R132): the scan finds a byte sequence's division into
rows of the table. -/

namespace Sys2Proof.Machine

/-! ## The rows of the table -/

theorem ByteRange.has_iff {r : ByteRange} {b : Byte} :
    r.has b = true ↔ r.lo.toNat ≤ b.toNat ∧ b.toNat ≤ r.hi.toNat :=
  decide_eq_true_iff

/-- The lead ranges of the two rows do not meet. -/
def leadsApart (x y : Utf8Row) : Prop := x.lead.hi.toNat < y.lead.lo.toNat ∨ y.lead.hi.toNat < x.lead.lo.toNat

theorem leadsApart_symm : Std.Symm leadsApart := ⟨fun _ _ h => h.symm⟩

theorem utf8Table_leadsApart : utf8Table.Pairwise leadsApart := by
  unfold leadsApart
  decide

/-- No byte leads two rows of the table. -/
theorem row_eq_of_lead_has {x y : Utf8Row} {b : Byte} (hx : x ∈ utf8Table) (hy : y ∈ utf8Table)
    (hxb : x.lead.has b = true) (hyb : y.lead.has b = true) : x = y := by
  have := leadsApart_symm
  by_contra hne
  have hapart : leadsApart x y := utf8Table_leadsApart.forall hx hy hne
  rw [ByteRange.has_iff] at hxb hyb
  unfold leadsApart at hapart
  omega

theorem utf8RowOf_eq_some_iff {b : Byte} {row : Utf8Row} :
    utf8RowOf b = some row ↔ row ∈ utf8Table ∧ row.lead.has b = true := by
  have hfound : ∀ {x : Utf8Row}, utf8RowOf b = some x → x ∈ utf8Table ∧ x.lead.has b = true := by
    intro x h
    rw [utf8RowOf] at h
    exact ⟨List.mem_of_find?_eq_some h, List.find?_some (p := fun row : Utf8Row => row.lead.has b) h⟩
  refine ⟨hfound, ?_⟩
  rintro ⟨hrow, hb⟩
  have hsome : (utf8RowOf b).isSome = true := List.find?_isSome.2 ⟨row, hrow, hb⟩
  obtain ⟨x, hx⟩ := Option.isSome_iff_exists.1 hsome
  obtain ⟨hmem, hxb⟩ := hfound hx
  rw [hx, row_eq_of_lead_has hmem hrow hxb hb]

/-! ## The scan and the division into characters -/

theorem utf8Scan_lead {b : Byte} {row : Utf8Row} (h : utf8RowOf b = some row) (d : List Byte) :
    utf8Scan [] (b :: d) = utf8Scan row.tail d := by
  rw [utf8Scan, h]

/-- Bytes that match the ranges a character still asks for leave the rest to be scanned. -/
theorem utf8Scan_append {rs : List ByteRange} {c : List Byte} (h : List.Forall₂ (fun r b => r.has b = true) rs c)
    (d : List Byte) : utf8Scan rs (c ++ d) = utf8Scan [] d := by
  induction h with
  | nil => rfl
  | cons hb _ ih => rw [List.cons_append, utf8Scan, hb, Bool.true_and, ih]

theorem utf8Scan_character {c : List Byte} (h : matchesUtf8Row c) (d : List Byte) :
    utf8Scan [] (c ++ d) = utf8Scan [] d := by
  obtain ⟨row, hrow, hc⟩ := h
  cases hc with
  | cons hb htail =>
    rw [List.cons_append, utf8Scan_lead (utf8RowOf_eq_some_iff.2 ⟨hrow, hb⟩), utf8Scan_append htail]

theorem wellFormedUtf8_nil : wellFormedUtf8 [] := ⟨[], by simp, rfl⟩

theorem wellFormedUtf8_append {c d : List Byte} (hc : matchesUtf8Row c) (hd : wellFormedUtf8 d) :
    wellFormedUtf8 (c ++ d) := by
  obtain ⟨chars, hchars, rfl⟩ := hd
  exact ⟨c :: chars, List.forall_mem_cons.2 ⟨hc, hchars⟩, rfl⟩

/-- What the scan accepts is the rest of a character and then whole characters. -/
theorem exists_append_of_utf8Scan {rs : List ByteRange} {d : List Byte} (h : utf8Scan rs d = true) :
    ∃ c rest, d = c ++ rest ∧ List.Forall₂ (fun r b => r.has b = true) rs c ∧ wellFormedUtf8 rest := by
  induction d generalizing rs with
  | nil =>
    cases rs with
    | nil => exact ⟨[], [], rfl, .nil, wellFormedUtf8_nil⟩
    | cons r rs => cases h
  | cons b d ih =>
    cases rs with
    | nil =>
      cases hrow : utf8RowOf b with
      | none => simp [utf8Scan, hrow] at h
      | some row =>
        rw [utf8Scan_lead hrow] at h
        obtain ⟨hmem, hb⟩ := utf8RowOf_eq_some_iff.1 hrow
        obtain ⟨c, rest, rfl, hc, hrest⟩ := ih h
        exact ⟨[], _, rfl, .nil, wellFormedUtf8_append (c := b :: c) ⟨row, hmem, .cons hb hc⟩ hrest⟩
    | cons r rs =>
      rw [utf8Scan, Bool.and_eq_true] at h
      obtain ⟨hb, h⟩ := h
      obtain ⟨c, rest, rfl, hc, hrest⟩ := ih h
      exact ⟨b :: c, rest, rfl, .cons hb hc, hrest⟩

theorem utf8Valid_iff (d : List Byte) : utf8Valid d = true ↔ wellFormedUtf8 d := by
  constructor
  · intro h
    obtain ⟨c, rest, rfl, hc, hrest⟩ := exists_append_of_utf8Scan h
    cases hc
    exact hrest
  · rintro ⟨chars, hchars, rfl⟩
    induction chars with
    | nil => rfl
    | cons c chars ih =>
      obtain ⟨hc, hchars⟩ := List.forall_mem_cons.1 hchars
      exact (utf8Scan_character hc _).trans (ih hchars)

theorem utf8Valid_eq_false {d : List Byte} (h : ¬ wellFormedUtf8 d) : utf8Valid d = false :=
  Bool.eq_false_iff.2 (mt (utf8Valid_iff d).1 h)

/-- Settles O27: no byte leads two rows, so the row the scan picks is the one a character matches. -/
theorem utf8ByTable : Obligations.Utf8ByTable := ⟨utf8Valid_iff, rfl⟩

end Sys2Proof.Machine
end

section
/-! SUPPORT. The varint a value is encoded as, byte by byte (30_encoding.md R84 to R86; 41_varint.md R130), and the
round trips (41_varint.md section 3). -/

namespace Sys2Proof.Machine

/-! ## The length and the bytes of a varint -/

theorem vlen_of_lt {n : Nat} (h : n < 128) : vlen n = 1 := if_pos (by omega)

/-- A value with a group above the lowest takes one byte more than that value without the lowest group. -/
theorem vlen_of_ge {n : Nat} (hlo : 128 ≤ n) (hhi : n < 2 ^ 32) : vlen n = vlen (n / 128) + 1 := by
  unfold vlen
  split_ifs <;> omega

theorem vlen_pos (n : Nat) : 0 < vlen n := by
  unfold vlen
  split_ifs <;> omega

@[simp] theorem length_uvarintBytes (v : Word) : (uvarintBytes v).length = vlen v.toNat := by simp [uvarintBytes]

theorem toNat_continuedGroup_eq (b : Byte) : (0x80#8 ||| (b &&& 0x7F#8)).toNat = 128 + b.toNat % 128 := by
  have hlow : b.toNat % 128 < 2 ^ 7 := Nat.mod_lt _ (by decide)
  rw [BitVec.toNat_or, toNat_lastGroup]
  exact (Nat.two_pow_add_eq_or_of_lt hlow 1).symm

theorem toNat_uvarintByte_zero (v : Word) :
    (uvarintByte v 0).toNat = v.toNat % 128 + if 1 < vlen v.toNat then 128 else 0 := by
  have hflag : (if 1 < vlen v.toNat then 128 else 0) ≤ 128 := by split_ifs <;> decide
  rw [uvarintByte, BitVec.toNat_ofNat, Nat.mul_zero, pow_zero, Nat.div_one, Nat.zero_add, Nat.mod_eq_of_lt]
  omega

theorem setWidth_8_toNat_mod (v : Word) : (v.setWidth 8 : Byte).toNat % 128 = v.toNat % 128 := by
  rw [BitVec.toNat_setWidth]
  omega

theorem uvarintBytes_of_lt {v : Word} (h : v.toNat < 128) : uvarintBytes v = [v.setWidth 8 &&& 0x7F#8] := by
  have hbyte : uvarintByte v 0 = v.setWidth 8 &&& 0x7F#8 := by
    apply BitVec.eq_of_toNat_eq
    rw [toNat_lastGroup, setWidth_8_toNat_mod, toNat_uvarintByte_zero, vlen_of_lt h]
    rfl
  rw [uvarintBytes, vlen_of_lt h, ← hbyte]
  rfl

section
variable {v : Word} (h : 128 ≤ v.toNat)
include h

theorem vlen_ushiftRight_seven : vlen v.toNat = vlen (v >>> 7).toNat + 1 := by
  rw [vlen_of_ge h v.isLt, toNat_ushiftRight_seven]

theorem uvarintByte_zero : uvarintByte v 0 = 0x80#8 ||| (v.setWidth 8 &&& 0x7F#8) := by
  have hmore : 1 < vlen v.toNat := by
    have := vlen_pos (v >>> 7).toNat
    rw [vlen_ushiftRight_seven h]
    omega
  apply BitVec.eq_of_toNat_eq
  rw [toNat_continuedGroup_eq, setWidth_8_toNat_mod, toNat_uvarintByte_zero, if_pos hmore, Nat.add_comm]

theorem uvarintByte_succ (k : Nat) : uvarintByte v (k + 1) = uvarintByte (v >>> 7) k := by
  have hgroup : v.toNat / 2 ^ (7 * (k + 1)) = v.toNat / 128 / 2 ^ (7 * k) := by
    rw [Nat.div_div_eq_div_mul]
    congr 1
    ring
  simp only [uvarintByte, vlen_ushiftRight_seven h, hgroup, toNat_ushiftRight_seven, Nat.add_lt_add_iff_right]

theorem uvarintBytes_of_ge : uvarintBytes v = (0x80#8 ||| (v.setWidth 8 &&& 0x7F#8)) :: uvarintBytes (v >>> 7) := by
  rw [uvarintBytes, vlen_ushiftRight_seven h, List.range_succ_eq_map, List.map_cons, List.map_map, uvarintByte_zero h]
  exact congrArg _ (List.map_congr_left fun k _ => uvarintByte_succ h k)

end

/-! ## The encoder gives these bytes (41_varint.md R130) -/

theorem ushiftRight_seven_eq_zero_iff {v : Word} : v >>> 7 = 0#32 ↔ v.toNat < 128 := by
  rw [← BitVec.toNat_inj, toNat_ushiftRight_seven, BitVec.toNat_ofNat]
  omega

theorem uvarintGroups_eq_uvarintBytes {k : Nat} (hk : 0 < k) {v : Word} (hv : v.toNat < 2 ^ (7 * k)) :
    uvarintGroups k v = uvarintBytes v := by
  induction k generalizing v with
  | zero => exact absurd hk (by decide)
  | succ k ih =>
    by_cases h : v.toNat < 128
    · rw [uvarintGroups_of_shift_eq_zero (ushiftRight_seven_eq_zero_iff.2 h), uvarintBytes_of_lt h]
    · have hpow : 2 ^ (7 * (k + 1)) = 128 * 2 ^ (7 * k) := by ring
      have hk' : 0 < k := by
        refine Nat.pos_of_ne_zero ?_
        rintro rfl
        omega
      have hshift : (v >>> 7).toNat < 2 ^ (7 * k) := by
        rw [toNat_ushiftRight_seven]
        omega
      rw [uvarintGroups_of_shift_ne_zero (mt ushiftRight_seven_eq_zero_iff.1 h), ih hk' hshift,
        uvarintBytes_of_ge (not_lt.1 h)]

theorem encodeUvarint_eq_uvarintBytes (v : Word) : encodeUvarint v = uvarintBytes v := by
  have hv := v.isLt
  exact uvarintGroups_eq_uvarintBytes (k := 5) (by decide) (by omega)

theorem length_encodeUvarint (v : Word) : (encodeUvarint v).length = vlen v.toNat := by
  rw [encodeUvarint_eq_uvarintBytes, length_uvarintBytes]

/-- Settles O22: the decoder reads the encoder's varint and nothing after it, and its length is `vlen`. -/
theorem varintRoundTrip : Obligations.VarintRoundTrip := by
  refine ⟨fun v t => ?_, fun d hd => ?_⟩
  · rw [decodeUvarint_encodeUvarint, length_encodeUvarint]
  · have hvlen : (encodeUvarint (BitVec.ofNat 32 d.length)).length = vlen d.length := by
      rw [length_encodeUvarint, BitVec.toNat_ofNat, Nat.mod_eq_of_lt hd]
    have hdecode := decodeBytes_encodeBytes hd []
    rw [List.append_nil, length_encodeBytes, hvlen] at hdecode
    refine ⟨hdecode, ?_⟩
    rw [encodeBytes, List.drop_left' hvlen, List.take_length]

end Sys2Proof.Machine
end

section
/-! SUPPORT. The encoding commands of the varint unit: VARINT_ENC, BYTES_ENC and STRING_ENC (41_varint.md R136, R138,
R140). -/

namespace Sys2Proof.Machine

/-- What a codec command leaves behind: its bytes at the destination, their count in RES1, nothing else changed. -/
theorem exists_storedBytes_deliver (s : State) {bytes : List Byte} {n : Nat} (hn : bytes.length = n) :
    ∃ m, (.next (s.deliver bytes) : Host.Outcome State Fault Refusal) =
        .next { s with dmem := m, res1 := BitVec.ofNat 32 n, err := .ok } ∧
      storedBytes s.dmem m (dstOperand s) bytes := by
  subst hn
  exact ⟨_, rfl, storedBytes_writeBytes s.dmem (dstOperand s) bytes⟩

/-! ## VARINT_ENC (41_varint.md R136) -/

theorem length_encodeUvarint_value (s : State) : (encodeUvarint (valueOperand s)).length = vlen s.arg0.toNat :=
  length_encodeUvarint s.arg0

section
variable {s : State} (h : s.rxArmed = false)
include h

theorem raises_varintEnc_outOfRange (hr : 4096 < dstOperand s + vlen s.arg0.toNat) :
    raises .varintEnc s .addressRange := by
  refine (issue_free _ h).trans ?_
  dsimp only
  rw [length_encodeUvarint_value, checkRange_of_lt hr]
  rfl

theorem exec_varintEnc (hr : dstOperand s + vlen s.arg0.toNat ≤ 4096) :
    exec .varintEnc s = .next (s.deliver (uvarintBytes s.arg0)) := by
  refine (issue_free _ h).trans ?_
  dsimp only
  rw [length_encodeUvarint_value, checkRange_of_le hr, ← encodeUvarint_eq_uvarintBytes]
  rfl

end

/-- Settles O20: the range check counts the encoder's bytes, which are those of R84 to R86. -/
theorem varintEncWrites : Obligations.VarintEncWrites := by
  refine ⟨hasOpcode_opcode .varintEnc, busyFirst_exec .varintEnc, fun s h =>
    ⟨raises_varintEnc_outOfRange h, fun hr => ?_⟩⟩
  rw [exec_varintEnc h hr]
  exact exists_storedBytes_deliver s (length_uvarintBytes s.arg0)

/-! ## The checks and the source of BYTES_ENC and STRING_ENC (41_varint.md R138, R140) -/

theorem length_encodeUvarint_count (s : State) : (encodeUvarint s.arg1).length = vlen (countOperand s) :=
  length_encodeUvarint s.arg1

section
variable {s : State}

theorem sourceForPrefixing_of_source_outOfRange (hr : 4096 < srcOperand s + countOperand s) :
    sourceForPrefixing s = raise .addressRange := by
  rw [sourceForPrefixing, checkRange_of_lt hr, raise_bind]

theorem sourceForPrefixing_of_destination_outOfRange (hr : srcInRange s)
    (hd : 4096 < dstOperand s + (vlen (countOperand s) + countOperand s)) :
    sourceForPrefixing s = raise .addressRange := by
  rw [sourceForPrefixing, checkRange_of_le hr, ok_bind, length_encodeUvarint_count, checkRange_of_lt hd, raise_bind]

theorem sourceForPrefixing_of_sourceIs {d : List Byte} (hr : srcInRange s)
    (hd : dstOperand s + (vlen (countOperand s) + countOperand s) ≤ 4096) (hs : sourceIs s d) :
    sourceForPrefixing s = .ok d := by
  obtain ⟨hlen, hbytes⟩ := hs
  rw [sourceForPrefixing, checkRange_of_le hr, ok_bind, length_encodeUvarint_count, checkRange_of_le hd, ok_bind,
    ← hlen, Memory.readBytes_eq_map_some _ _ _ hbytes, useAll_map_some]

/-- The total of a length and its data (41_varint.md R138). -/
theorem length_uvarintBytes_append {d : List Byte} (hs : sourceIs s d) :
    (uvarintBytes s.arg1 ++ d).length = vlen (countOperand s) + countOperand s := by
  rw [List.length_append, length_uvarintBytes, hs.1]
  rfl

variable (h : s.rxArmed = false)
include h

theorem raises_of_sourceForPrefixing {i : Instr} (hi : i = .bytesEnc ∨ i = .stringEnc) {e : ResultCode}
    (hs : sourceForPrefixing s = raise e) : raises i s e := by
  rcases hi with rfl | rfl
  all_goals
    refine (issue_free _ h).trans ?_
    rw [hs]
    rfl

theorem exec_bytesEnc {d : List Byte} (hs : sourceForPrefixing s = .ok d) :
    exec .bytesEnc s = .next (s.deliver (uvarintBytes s.arg1 ++ d)) := by
  refine (issue_free _ h).trans ?_
  rw [hs, ← encodeUvarint_eq_uvarintBytes]
  rfl

theorem exec_stringEnc {d : List Byte} (hs : sourceForPrefixing s = .ok d) (hd : wellFormedUtf8 d) :
    exec .stringEnc s = .next (s.deliver (uvarintBytes s.arg1 ++ d)) := by
  refine (issue_free _ h).trans ?_
  rw [hs, ok_bind, (utf8Valid_iff d).2 hd, ← encodeUvarint_eq_uvarintBytes]
  rfl

theorem raises_stringEnc_invalidUtf8 {d : List Byte} (hs : sourceForPrefixing s = .ok d) (hd : ¬ wellFormedUtf8 d) :
    raises .stringEnc s .invalidUtf8 := by
  refine (issue_free _ h).trans ?_
  rw [hs, ok_bind, utf8Valid_eq_false hd]
  rfl

end

/-- Settles O23: the source is read whole before the first write, so an overlap changes nothing. -/
theorem bytesEncWrites : Obligations.BytesEncWrites := by
  refine ⟨hasOpcode_opcode .bytesEnc, busyFirst_exec .bytesEnc, fun s h =>
    ⟨fun hr => raises_of_sourceForPrefixing h (.inl rfl) (sourceForPrefixing_of_source_outOfRange hr),
      fun hr hd => raises_of_sourceForPrefixing h (.inl rfl) (sourceForPrefixing_of_destination_outOfRange hr hd),
      fun d hr hd hs => ?_⟩⟩
  rw [exec_bytesEnc h (sourceForPrefixing_of_sourceIs hr hd hs)]
  exact exists_storedBytes_deliver s (length_uvarintBytes_append hs)

/-- Settles O25: the checks and the source are those of BYTES_ENC, and the UTF-8 test stands before the first write. -/
theorem stringEncWrites : Obligations.StringEncWrites := by
  refine ⟨hasOpcode_opcode .stringEnc, busyFirst_exec .stringEnc, fun s h =>
    ⟨fun hr => raises_of_sourceForPrefixing h (.inr rfl) (sourceForPrefixing_of_source_outOfRange hr),
      fun hr hd => raises_of_sourceForPrefixing h (.inr rfl) (sourceForPrefixing_of_destination_outOfRange hr hd),
      fun d hr hd hs => ?_⟩⟩
  have hsource := sourceForPrefixing_of_sourceIs hr hd hs
  refine ⟨raises_stringEnc_invalidUtf8 h hsource, fun hutf8 => ?_⟩
  rw [exec_stringEnc h hsource hutf8]
  exact exists_storedBytes_deliver s (length_uvarintBytes_append hs)

end Sys2Proof.Machine
end

section
/-! SUPPORT. The decoding commands of the varint unit: VARINT_DEC, BYTES_DEC and STRING_DEC (41_varint.md R133 to R135,
R137, R139, R141). -/

namespace Sys2Proof.Machine

/-! ## Bytes that are no varint (41_varint.md R133) -/

theorem uvarintValue_append (d h : List Byte) :
    uvarintValue (d ++ h) = uvarintValue d + uvarintValue h * 2 ^ (7 * d.length) := by
  induction d with
  | nil => simp [uvarintValue]
  | cons b d ih =>
    rw [List.cons_append, uvarintValue_cons, uvarintValue_cons, ih, List.length_cons]
    ring

/-- A varint's bytes are continued ones and then one that ends it. -/
theorem exists_append_of_uvarintShape {h : List Byte} (hs : uvarintShape h = true) :
    ∃ d b, h = d ++ [b] ∧ d.all (fun b => b.getLsbD 7) = true ∧ b.getLsbD 7 = false := by
  induction h with
  | nil => cases hs
  | cons b h ih =>
    cases h with
    | nil => exact ⟨[], b, rfl, rfl, by simpa [uvarintShape] using hs⟩
    | cons c h =>
      obtain ⟨hb, hs⟩ : b.getLsbD 7 = true ∧ uvarintShape (c :: h) = true := by
        simpa only [uvarintShape, Bool.and_eq_true] using hs
      obtain ⟨d, e, heq, hd, he⟩ := ih hs
      exact ⟨b :: d, e, congrArg (b :: ·) heq, by rw [List.all_cons, hb, hd]; rfl, he⟩

/-- The loop sums continued bytes up and goes on, as long as it stays within five bytes. -/
theorem decodeUvarintFrom_of_all_continued {d : List Byte} (hd : d.all (fun b => b.getLsbD 7) = true) {value i : Nat}
    (hi : i + d.length ≤ 5) (rest : List (Option Byte)) :
    decodeUvarintFrom value i (d.map some ++ rest) =
      decodeUvarintFrom (value + uvarintValue d * 2 ^ (7 * i)) (i + d.length) rest := by
  induction d generalizing value i with
  | nil => simp [uvarintValue]
  | cons b d ih =>
    rw [List.all_cons, Bool.and_eq_true] at hd
    obtain ⟨hb, hd⟩ := hd
    rw [List.length_cons] at hi ⊢
    have hsum : value + uvarintValue (b :: d) * 2 ^ (7 * i) =
        value + b.toNat % 128 * 2 ^ (7 * i) + uvarintValue d * 2 ^ (7 * (i + 1)) := by
      rw [uvarintValue_cons]
      ring
    have hlen : i + (d.length + 1) = i + 1 + d.length := by omega
    rw [hlen] at hi ⊢
    rw [hsum]
    exact (decodeUvarintFrom_continued (by omega) hb _).trans (ih hd hi)

theorem decodeUvarintFrom_five (value : Nat) (x : List (Option Byte)) :
    decodeUvarintFrom value 5 x = raise .malformedVarint := by
  cases x <;> rfl

theorem decodeUvarintFrom_last_too_large {value i : Nat} {b : Byte} (hi : i < 5) (hb : b.getLsbD 7 = false)
    (hv : 2 ^ 32 ≤ value + b.toNat % 128 * 2 ^ (7 * i)) (rest : List (Option Byte)) :
    decodeUvarintFrom value i (some b :: rest) = raise .malformedVarint := by
  rw [decodeUvarintFrom, if_neg hi.ne, useByte_some, ok_bind, if_neg (by rw [hb]; decide), if_pos hv]

/-- Continued bytes alone: the buffer ends or five bytes are taken. -/
theorem decodeUvarint_of_all_continued {d : List Byte} (hd : d.all (fun b => b.getLsbD 7) = true)
    (hlen : d.length ≤ 5) {rest : List (Option Byte)} (hend : d.length = 5 ∨ rest = []) :
    decodeUvarint (d.map some ++ rest) = raise .malformedVarint := by
  rw [decodeUvarint, decodeUvarintFrom_of_all_continued hd (by omega), Nat.zero_add]
  rcases hend with h5 | rfl
  · rw [Nat.zero_add, h5, decodeUvarintFrom_five]
  · rfl

theorem decodeUvarint_of_too_large {h : List Byte} (hs : uvarintShape h = true) (hlen : h.length ≤ 5)
    (hv : 2 ^ 32 ≤ uvarintValue h) (rest : List (Option Byte)) :
    decodeUvarint (h.map some ++ rest) = raise .malformedVarint := by
  obtain ⟨d, b, rfl, hd, hb⟩ := exists_append_of_uvarintShape hs
  rw [List.length_append, List.length_singleton] at hlen
  have hsum : uvarintValue (d ++ [b]) = uvarintValue d + b.toNat % 128 * 2 ^ (7 * d.length) :=
    uvarintValue_append d [b]
  rw [decodeUvarint, List.map_append, List.append_assoc, decodeUvarintFrom_of_all_continued hd (by omega)]
  exact decodeUvarintFrom_last_too_large (by omega) hb (by simpa [hsum] using hv) rest

/-! ## The decoders behind the varint (41_varint.md R134, R135) -/

theorem decodeBytes_of_decodeUvarint {x : List (Option Byte)} {L n : Nat} (hx : decodeUvarint x = .ok (L, n)) :
    decodeBytes x =
      (raiseIf (decide (x.length - n < L)) .insufficientPayload >>= fun _ => .ok (L, n + L)) := by
  rw [decodeBytes, hx]
  rfl

theorem decodeString_of_decodeBytes {x : List (Option Byte)} {L c : Nat} (hx : decodeBytes x = .ok (L, c)) :
    decodeString x =
      (useAll ((x.drop (c - L)).take L) >>= fun d => raiseIf (!utf8Valid d) .invalidUtf8 >>= fun _ => .ok (L, c)) := by
  rw [decodeString, hx]
  rfl

theorem decodeString_of_decodeBytes_raise {x : List (Option Byte)} {e : ResultCode} (hx : decodeBytes x = raise e) :
    decodeString x = raise e := by
  rw [decodeString, hx, raise_bind]

/-! ## The decoders at a command's source -/

/-- What a decoding command's decoder is given. -/
def sourceBytes (s : State) : List (Option Byte) := s.dmem.readBytes (srcOperand s) (countOperand s)

section
variable {s : State} {h : List Byte}

@[simp] theorem length_sourceBytes (s : State) : (sourceBytes s).length = countOperand s :=
  Memory.readBytes_length ..

theorem drop_sourceBytes (s : State) (k : Nat) :
    (sourceBytes s).drop k = s.dmem.readBytes (srcOperand s + k) (countOperand s - k) :=
  Memory.readBytes_drop ..

/-- The source begins with the bytes DMEM holds there. -/
theorem sourceBytes_eq_append (hb : holdsBytes s.dmem (srcOperand s) h) (hlen : h.length ≤ countOperand s) :
    sourceBytes s = h.map some ++ (sourceBytes s).drop h.length := by
  have htake : (sourceBytes s).take h.length = h.map some := by
    rw [sourceBytes, Memory.readBytes_take _ _ _ _ hlen, Memory.readBytes_eq_map_some _ _ _ hb]
  rw [← htake, List.take_append_drop]

theorem decodeUvarint_of_noUvarintAtSource (hn : noUvarintAtSource s) :
    decodeUvarint (sourceBytes s) = raise .malformedVarint := by
  obtain ⟨d, hb, ⟨hlen, hd⟩ | ⟨hlen, hs, hv⟩⟩ := hn
  · rw [sourceBytes_eq_append hb (by omega)]
    refine decodeUvarint_of_all_continued hd (by omega) ?_
    rcases Nat.lt_or_ge d.length 5 with hlt | hge
    · exact .inr (List.drop_eq_nil_of_le (by rw [length_sourceBytes]; omega))
    · exact .inl (by omega)
  · rw [sourceBytes_eq_append hb (by omega)]
    exact decodeUvarint_of_too_large hs (by omega) hv _

theorem decodeBytes_of_noUvarintAtSource (hn : noUvarintAtSource s) :
    decodeBytes (sourceBytes s) = raise .malformedVarint := by
  rw [decodeBytes, decodeUvarint_of_noUvarintAtSource hn, raise_bind]

variable (hu : uvarintAtSource s h)
include hu

theorem decodeUvarint_of_uvarintAtSource : decodeUvarint (sourceBytes s) = .ok (uvarintValue h, h.length) := by
  obtain ⟨hu, hlen, hb⟩ := hu
  rw [sourceBytes_eq_append hb hlen, decodeUvarint_of_isUvarint hu]

theorem decodeBytes_of_insufficient (hv : countOperand s - h.length < uvarintValue h) :
    decodeBytes (sourceBytes s) = raise .insufficientPayload := by
  rw [decodeBytes_of_decodeUvarint (decodeUvarint_of_uvarintAtSource hu), length_sourceBytes, decide_eq_true hv]
  rfl

theorem decodeBytes_of_sufficient (hv : uvarintValue h ≤ countOperand s - h.length) :
    decodeBytes (sourceBytes s) = .ok (uvarintValue h, h.length + uvarintValue h) := by
  rw [decodeBytes_of_decodeUvarint (decodeUvarint_of_uvarintAtSource hu), length_sourceBytes, decide_eq_false hv.not_gt]
  rfl

/-- Behind the length the string decoder uses exactly the data, and tests it. -/
theorem decodeString_of_sufficient {d : List Byte} (hv : uvarintValue h ≤ countOperand s - h.length)
    (hlen : d.length = uvarintValue h) (hd : holdsBytes s.dmem (srcOperand s + h.length) d) :
    decodeString (sourceBytes s) =
      (raiseIf (!utf8Valid d) .invalidUtf8 >>= fun _ => .ok (uvarintValue h, h.length + uvarintValue h)) := by
  have hdata : ((sourceBytes s).drop h.length).take (uvarintValue h) = d.map some := by
    rw [drop_sourceBytes, Memory.readBytes_take _ _ _ _ hv, ← hlen, Memory.readBytes_eq_map_some _ _ _ hd]
  rw [decodeString_of_decodeBytes (decodeBytes_of_sufficient hu hv), Nat.add_sub_cancel, hdata, useAll_map_some,
    ok_bind]

end

/-! ## The commands -/

/-- The command checks its source, decodes the bytes there and reports the decoder's two numbers (R137, R139, R141). -/
def decodesBy (i : Instr) (dec : List (Option Byte) → Except Stop (Nat × Nat)) : Prop :=
  ∀ s : State, exec i s = issue s do
    checkRange (srcOperand s) (countOperand s)
    let r ← dec (sourceBytes s)
    return s.report r.1 r.2

theorem varintDec_decodesBy : decodesBy .varintDec decodeUvarint := fun _ => rfl

theorem bytesDec_decodesBy : decodesBy .bytesDec decodeBytes := fun _ => rfl

theorem stringDec_decodesBy : decodesBy .stringDec decodeString := fun _ => rfl

section
variable {i : Instr} {dec : List (Option Byte) → Except Stop (Nat × Nat)} {s : State}

theorem decodesBy.raises_addressRange (hi : decodesBy i dec) (h : s.rxArmed = false)
    (hr : 4096 < srcOperand s + countOperand s) : raises i s .addressRange := by
  rw [raises, hi, issue_free _ h, checkRange_of_lt hr]
  rfl

theorem decodesBy.raises_of_raise (hi : decodesBy i dec) (h : s.rxArmed = false) (hr : srcInRange s) {e : ResultCode}
    (hd : dec (sourceBytes s) = raise e) : raises i s e := by
  rw [raises, hi, issue_free _ h, checkRange_of_le hr, ok_bind, hd]
  rfl

theorem decodesBy.exec_of_ok (hi : decodesBy i dec) (h : s.rxArmed = false) (hr : srcInRange s) {r0 r1 : Nat}
    (hd : dec (sourceBytes s) = .ok (r0, r1)) :
    exec i s = .next { s with res0 := BitVec.ofNat 32 r0, res1 := BitVec.ofNat 32 r1, err := .ok } := by
  rw [hi, issue_free _ h, checkRange_of_le hr, ok_bind, hd]
  rfl

end

/-- Settles O21: the loop runs over the continued bytes of the source and then ends or fails as R133 says. -/
theorem varintDecReads : Obligations.VarintDecReads :=
  ⟨hasOpcode_opcode .varintDec, busyFirst_exec .varintDec, fun _ h =>
    ⟨varintDec_decodesBy.raises_addressRange h,
      fun hr hn => varintDec_decodesBy.raises_of_raise h hr (decodeUvarint_of_noUvarintAtSource hn),
      fun _ hr hu => varintDec_decodesBy.exec_of_ok h hr (decodeUvarint_of_uvarintAtSource hu)⟩⟩

/-- Settles O24: the length is the varint's, and the bytes behind it are counted, not used. -/
theorem bytesDecReads : Obligations.BytesDecReads :=
  ⟨hasOpcode_opcode .bytesDec, busyFirst_exec .bytesDec, fun _ h =>
    ⟨bytesDec_decodesBy.raises_addressRange h,
      fun hr hn => bytesDec_decodesBy.raises_of_raise h hr (decodeBytes_of_noUvarintAtSource hn),
      fun _ hr hu =>
        ⟨fun hv => bytesDec_decodesBy.raises_of_raise h hr (decodeBytes_of_insufficient hu hv),
          fun hv => bytesDec_decodesBy.exec_of_ok h hr (decodeBytes_of_sufficient hu hv)⟩⟩⟩

/-- Settles O26: the errors of BYTES_DEC come first, and the UTF-8 test is of exactly the data. -/
theorem stringDecReads : Obligations.StringDecReads := by
  refine ⟨hasOpcode_opcode .stringDec, busyFirst_exec .stringDec, fun s h =>
    ⟨stringDec_decodesBy.raises_addressRange h,
      fun hr hn => stringDec_decodesBy.raises_of_raise h hr
        (decodeString_of_decodeBytes_raise (decodeBytes_of_noUvarintAtSource hn)),
      fun _ hr hu =>
        ⟨fun hv => stringDec_decodesBy.raises_of_raise h hr
          (decodeString_of_decodeBytes_raise (decodeBytes_of_insufficient hu hv)),
          fun d hv hlen hd => ?_⟩⟩⟩
  have hdecode := decodeString_of_sufficient hu hv hlen hd
  constructor
  · intro hutf8
    rw [utf8Valid_eq_false hutf8] at hdecode
    exact stringDec_decodesBy.raises_of_raise h hr hdecode
  · intro hutf8
    rw [(utf8Valid_iff d).2 hutf8] at hdecode
    exact stringDec_decodesBy.exec_of_ok h hr hdecode

end Sys2Proof.Machine
end

section
/-! SUPPORT. FRAME_PARSE: the parser on a buffer that is written everywhere makes the checks of `parseChecks` in order
(42_frame.md R161, R166). -/

namespace Sys2Proof.Machine

/-! ## The checks in order -/

/-- Makes checks in order: the first that does not hold raises its code. -/
def runChecks : List (Bool × ResultCode) → Except Stop Unit
  | [] => .ok ()
  | (holds, e) :: rest => raiseIf (!holds) e >>= fun _ => runChecks rest

theorem runChecks_of_firstFailure_eq_some {cs : List (Bool × ResultCode)} {e : ResultCode}
    (h : firstFailure cs = some e) : runChecks cs = raise e := by
  induction cs with
  | nil => cases h
  | cons c cs ih =>
    obtain ⟨_ | _, e'⟩ := c
    · obtain rfl : e' = e := by simpa [firstFailure] using h
      rfl
    · exact ih h

theorem runChecks_of_firstFailure_eq_none {cs : List (Bool × ResultCode)} (h : firstFailure cs = none) :
    runChecks cs = .ok () := by
  induction cs with
  | nil => rfl
  | cons c cs ih =>
    obtain ⟨_ | _, e⟩ := c
    · cases h
    · exact ih h

/-! ## The parser makes these checks -/

/-- A check of the parser and one of `parseChecks` that agree, and what comes behind them when they hold. -/
theorem raiseIf_bind_congr {α : Type} {c holds : Bool} {e : ResultCode} {x y : Unit → Except Stop α}
    (hc : c = !holds) (hxy : holds = true → x () = y ()) : (raiseIf c e >>= x) = (raiseIf (!holds) e >>= y) := by
  subst hc
  cases holds with
  | false => rfl
  | true => exact hxy rfl

theorem bne_eq_not_decide_toNat {n : Nat} (b c : BitVec n) : (b != c) = !decide (b.toNat = c.toNat) := by
  simp [bne, beq_eq_decide, BitVec.toNat_inj]

theorem decide_lt_eq_not_decide_le (a b : Nat) : decide (a < b) = !decide (b ≤ a) := by
  rw [← decide_not]
  exact decide_eq_decide.2 Nat.not_le.symm

theorem badLength_eq_not_decide (L : Nat) : badLength L = !decide (1 ≤ L ∧ L ≤ 1024) := by
  rw [← Bool.not_inj_iff, Bool.not_not, Bool.eq_iff_iff, Bool.not_eq_true', badLength_eq_false_iff, decide_eq_true_eq]

/-- The CRC field the parser reads is the one the layout names (30_encoding.md R80). -/
theorem fromLe16_getD_eq_crcField (f : List Byte) :
    fromLe16 (f.getD (4 + declaredLength f) 0#8) (f.getD (5 + declaredLength f) 0#8) =
      BitVec.ofNat 16 (crcField f) := by
  rw [crcField, byteNat, byteNat, ← fromLe16_toNat, BitVec.ofNat_toNat, BitVec.setWidth_eq]

theorem toNat_ofNat_crcField (f : List Byte) : (BitVec.ofNat 16 (crcField f)).toNat = crcField f := by
  rw [← fromLe16_getD_eq_crcField, fromLe16_toNat]
  rfl

theorem parse_map_some (f : List Byte) :
    parse (f.map some) =
      (runChecks (parseChecks f) >>= fun _ => .ok (declaredLength f, BitVec.ofNat 16 (crcField f))) := by
  simp only [parse, parseChecks, runChecks, bind_assoc, List.length_map, pure_ok]
  refine raiseIf_bind_congr (decide_lt_eq_not_decide_le _ _) fun hlength => ?_
  rw [decide_eq_true_eq] at hlength
  rw [useAt_map_some f 0 (by omega), ok_bind]
  refine raiseIf_bind_congr (bne_eq_not_decide_toNat _ _) fun _ => ?_
  rw [useAt_map_some f (f.length - 1) (by omega), ok_bind]
  refine raiseIf_bind_congr (bne_eq_not_decide_toNat _ _) fun _ => ?_
  rw [useAt_map_some f 1 (by omega), ok_bind]
  refine raiseIf_bind_congr (bne_eq_not_decide_toNat _ _) fun _ => ?_
  rw [useAt_map_some f 2 (by omega), ok_bind, useAt_map_some f 3 (by omega), ok_bind, fromLe16_getD_toNat,
    Nat.add_right_comm 4]
  refine raiseIf_bind_congr (badLength_eq_not_decide _) fun _ => ?_
  refine raiseIf_bind_congr (decide_lt_eq_not_decide_le _ _) fun hfits => ?_
  rw [decide_eq_true_eq] at hfits
  rw [useAt_map_some f _ (by omega), ok_bind, useAt_map_some f _ (by omega), ok_bind, ← List.map_drop,
    ← List.map_take, useAll_map_some, ok_bind, fromLe16_getD_eq_crcField]
  refine raiseIf_bind_congr ?_ fun _ => rfl
  rw [bne_eq_not_decide_toNat, toNat_ofNat_crcField]
  rfl

theorem parse_of_firstFailure_eq_some {f : List Byte} {e : ResultCode} (h : firstFailure (parseChecks f) = some e) :
    parse (f.map some) = raise e := by
  rw [parse_map_some, runChecks_of_firstFailure_eq_some h, raise_bind]

theorem parse_of_firstFailure_eq_none {f : List Byte} (h : firstFailure (parseChecks f) = none) :
    parse (f.map some) = .ok (declaredLength f, BitVec.ofNat 16 (crcField f)) := by
  rw [parse_map_some, runChecks_of_firstFailure_eq_none h, ok_bind]

/-! ## The command -/

/-- The two numbers FRAME_PARSE reports of a buffer (42_frame.md R166). -/
def parseReport (x : List (Option Byte)) : Except Stop (Nat × Nat) :=
  parse x >>= fun r => .ok (r.1, r.2.toNat)

theorem frameParse_decodesBy : decodesBy .frameParse parseReport := by
  intro s
  simp only [parseReport, bind_assoc, ok_bind, State.report, BitVec.ofNat_toNat]
  rfl

theorem sourceBytes_of_sourceIs {s : State} {d : List Byte} (hs : sourceIs s d) : sourceBytes s = d.map some := by
  obtain ⟨hlen, hbytes⟩ := hs
  rw [sourceBytes, ← hlen, Memory.readBytes_eq_map_some _ _ _ hbytes]

/-- Settles O30: on a source that is written everywhere the parser makes the listed checks in order. -/
theorem frameParseVerdict : Obligations.FrameParseVerdict := by
  refine ⟨hasOpcode_opcode .frameParse, busyFirst_exec .frameParse, fun s h =>
    ⟨frameParse_decodesBy.raises_addressRange h, fun f hr hs =>
      ⟨fun e he => frameParse_decodesBy.raises_of_raise h hr ?_, fun hnone =>
        frameParse_decodesBy.exec_of_ok h hr ?_⟩⟩⟩
  · rw [parseReport, sourceBytes_of_sourceIs hs, parse_of_firstFailure_eq_some he, raise_bind]
  · rw [parseReport, sourceBytes_of_sourceIs hs, parse_of_firstFailure_eq_none hnone, ok_bind, toNat_ofNat_crcField]

end Sys2Proof.Machine
end

section
/-! SUPPORT. FRAME_BUILD and the parser on what it builds (42_frame.md R163, R167, R168). -/

namespace Sys2Proof.Machine

/-! ## The frame is the layout's (30_encoding.md R80) -/

theorem leBytes_eq_le16 (n : Nat) : leBytes n = le16 (BitVec.ofNat 16 n) := by
  simp only [leBytes, le16, List.cons.injEq, and_true, ← BitVec.toNat_inj, BitVec.extractLsb'_toNat,
    BitVec.toNat_ofNat, Nat.shiftRight_eq_div_pow]
  omega

theorem leBytes_toNat (v : Half) : leBytes v.toNat = le16 v := by
  rw [leBytes_eq_le16, BitVec.ofNat_toNat, BitVec.setWidth_eq]

theorem frameBody_eq_layout (p : List Byte) : frameBody p = [0x01#8] ++ leBytes p.length ++ p := by
  rw [leBytes_eq_le16]
  rfl

theorem frameLayout_eq_frame (p : List Byte) : frameLayout p = frame p := by
  rw [frame, ← leBytes_toNat, frameBody_eq_layout]
  simp [frameLayout]

theorem frameFields_fits {p : List Byte} (hhi : p.length ≤ 1024) : (frameFields p).fits := by
  rw [FrameFields.fits, frameFields, fromLe16_extractLsb']
  exact Nat.mod_eq_of_lt (by omega)

theorem crcField_frame {p : List Byte} (hhi : p.length ≤ 1024) :
    crcField (frame p) = (checksum (frameBody p)).toNat := by
  rw [← bytes_frameFields, FrameFields.crcField_bytes (frameFields_fits hhi)]
  exact congrArg BitVec.toNat (fromLe16_extractLsb' _)

/-! ## FRAME_BUILD (42_frame.md R163) -/

section
variable {s : State} (h : s.rxArmed = false)
include h

theorem raises_frameBuild_source_outOfRange (hr : 4096 < srcOperand s + countOperand s) :
    raises .frameBuild s .addressRange := by
  refine (issue_free _ h).trans ?_
  rw [checkRange_of_lt hr]
  rfl

variable (hr : srcInRange s)
include hr

theorem raises_frameBuild_destination_outOfRange (hd : 4096 < dstOperand s + (7 + countOperand s)) :
    raises .frameBuild s .addressRange := by
  refine (issue_free _ h).trans ?_
  rw [checkRange_of_le hr, ok_bind, checkRange_of_lt hd]
  rfl

variable (hd : dstOperand s + (7 + countOperand s) ≤ 4096)
include hd

theorem raises_frameBuild_badLength (hn : countOperand s < 1 ∨ 1024 < countOperand s) :
    raises .frameBuild s .lengthOutOfRange := by
  refine (issue_free _ h).trans ?_
  rw [checkRange_of_le hr, ok_bind, checkRange_of_le hd, ok_bind, badLength, decide_eq_true hn]
  rfl

theorem exec_frameBuild {p : List Byte} (hlo : 1 ≤ countOperand s) (hhi : countOperand s ≤ 1024)
    (hs : sourceIs s p) :
    exec .frameBuild s = .next { s with
      dmem := s.dmem.writeBytes (dstOperand s) (frame p), res0 := (checksum (frameBody p)).setWidth 32,
      res1 := BitVec.ofNat 32 (7 + countOperand s), err := .ok } := by
  have hsource : s.dmem.readBytes (srcOperand s) (countOperand s) = p.map some := sourceBytes_of_sourceIs hs
  refine (issue_free _ h).trans ?_
  rw [checkRange_of_le hr, ok_bind, checkRange_of_le hd, ok_bind, (badLength_eq_false_iff _).2 ⟨hlo, hhi⟩,
    raiseIf_false, ok_bind, hsource, useAll_map_some]
  rfl

end

/-- Settles O28: the bytes the machine puts together are those of the layout, and the payload is read whole before
the first write. -/
theorem frameBuildWrites : Obligations.FrameBuildWrites := by
  refine ⟨hasOpcode_opcode .frameBuild, busyFirst_exec .frameBuild, fun s h =>
    ⟨raises_frameBuild_source_outOfRange h, raises_frameBuild_destination_outOfRange h,
      raises_frameBuild_badLength h, fun p hr hd hlo hhi hs => ?_⟩⟩
  have hlen : p.length ≤ 1024 := hs.1.trans_le hhi
  rw [exec_frameBuild h hr hd hlo hhi hs, frameLayout_eq_frame, crcField_frame hlen, BitVec.ofNat_toNat]
  exact ⟨_, rfl, storedBytes_writeBytes s.dmem (dstOperand s) (frame p)⟩

/-! ## The parser on built frames -/

namespace FrameFields

variable (x : FrameFields) (ignored : List (Option Byte))

/-- A buffer of the fields up to the CRC field, then ignored bytes, written or not, then the last byte (R168). -/
def bufferWith : List (Option Byte) :=
  [some x.start, some x.version, some x.lenLo, some x.lenHi] ++ x.payload.map some ++
    [some x.crcLo, some x.crcHi] ++ ignored ++ [some x.last]

theorem bufferWith_nil : x.bufferWith [] = x.bytes.map some := by simp [bufferWith, bytes]

theorem length_bufferWith : (x.bufferWith ignored).length = 7 + x.payload.length + ignored.length := by
  simp [bufferWith]
  omega

theorem useAt_bufferWith_last : useAt (x.bufferWith ignored) ((x.bufferWith ignored).length - 1) = .ok x.last := by
  refine useAt_of_getElem? ?_
  rw [← List.getLast?_eq_getElem?, bufferWith, List.getLast?_concat]

theorem useAt_bufferWith_crcLo : useAt (x.bufferWith ignored) (4 + x.payload.length) = .ok x.crcLo := by
  refine useAt_of_getElem? ?_
  simp [bufferWith, Nat.add_comm 4]

theorem useAt_bufferWith_crcHi : useAt (x.bufferWith ignored) (5 + x.payload.length) = .ok x.crcHi := by
  refine useAt_of_getElem? ?_
  simp [bufferWith, Nat.add_comm 5]

/-- The checksum range is written. -/
theorem useAll_bufferWith_range :
    useAll (((x.bufferWith ignored).drop 1).take (3 + x.payload.length)) =
      .ok (x.version :: x.lenLo :: x.lenHi :: x.payload) := by
  rw [useAll_eq_ok]
  simp [bufferWith, Nat.add_comm 3]

variable {x}

/-- What is left of the parser's checks when the length field declares the payload, which has a legal length. -/
theorem parse_bufferWith (hfits : x.fits) (hlo : 1 ≤ x.payload.length)
    (hhi : x.payload.length ≤ 1024) :
    parse (x.bufferWith ignored) = (do
      raiseIf (x.start != 0xAA#8) .invalidStartByte
      raiseIf (x.last != 0x55#8) .invalidEndByte
      raiseIf (x.version != 0x01#8) .unsupportedVersion
      raiseIf (checksum (x.version :: x.lenLo :: x.lenHi :: x.payload) != fromLe16 x.crcLo x.crcHi) .crcMismatch
      return (x.payload.length, fromLe16 x.crcLo x.crcHi)) := by
  have hstart : useAt (x.bufferWith ignored) 0 = .ok x.start := rfl
  have hversion : useAt (x.bufferWith ignored) 1 = .ok x.version := rfl
  have hlenLo : useAt (x.bufferWith ignored) 2 = .ok x.lenLo := rfl
  have hlenHi : useAt (x.bufferWith ignored) 3 = .ok x.lenHi := rfl
  have hdeclared : (fromLe16 x.lenLo x.lenHi).toNat = x.payload.length := hfits
  have hlegal : badLength x.payload.length = false := (badLength_eq_false_iff _).2 ⟨hlo, hhi⟩
  have hshort : decide ((x.bufferWith ignored).length < 7) = false := by
    rw [length_bufferWith]
    exact decide_eq_false (by omega)
  have htruncated : decide ((x.bufferWith ignored).length < 4 + x.payload.length + 3) = false := by
    rw [length_bufferWith]
    exact decide_eq_false (by omega)
  simp only [parse, hshort, hstart, useAt_bufferWith_last, hversion, hlenLo, hlenHi, hdeclared, hlegal, htruncated,
    useAt_bufferWith_crcLo, useAt_bufferWith_crcHi, useAll_bufferWith_range, raiseIf_false, ok_bind]

end FrameFields

/-- The checks on a built frame's fields with another last byte behind any bytes. -/
theorem parse_frameFields_last {p : List Byte} (hlo : 1 ≤ p.length) (hhi : p.length ≤ 1024) (b : Byte)
    (ignored : List (Option Byte)) :
    parse ({ frameFields p with last := b }.bufferWith ignored) =
      (raiseIf (b != 0x55#8) .invalidEndByte >>= fun _ => .ok (p.length, checksum (frameBody p))) := by
  have hcrc : fromLe16 (frameFields p).crcLo (frameFields p).crcHi = checksum (frameBody p) := fromLe16_extractLsb' _
  rw [FrameFields.parse_bufferWith (x := { frameFields p with last := b }) ignored (frameFields_fits hhi) hlo hhi, hcrc]
  simp [frameFields, frameBody, le16]

theorem parse_frame {p : List Byte} (hlo : 1 ≤ p.length) (hhi : p.length ≤ 1024) :
    parse ((frame p).map some) = .ok (p.length, checksum (frameBody p)) := by
  rw [← bytes_frameFields, ← FrameFields.bufferWith_nil]
  exact parse_frameFields_last hlo hhi 0x55#8 []

/-- Settles O31: the fields of a built frame pass every check. -/
theorem frameRoundTrip : Obligations.FrameRoundTrip := by
  intro p hlo hhi
  rw [← frameBody_eq_layout]
  refine ⟨parse_frame hlo hhi, ?_⟩
  simp [frame, frameBody, le16]

/-- Settles O32: behind the CRC field the parser uses only the last byte; in the second buffer the frame's own end
byte is one of the ignored bytes. -/
theorem longBuffersAccepted : Obligations.LongBuffersAccepted := by
  intro p ignored hlo hhi
  have hlong : ((frame p).take (6 + p.length)).map some ++ ignored ++ [some 0x55#8] =
      { frameFields p with last := 0x55#8 }.bufferWith ignored := by
    simp [frame, FrameFields.bufferWith, frameFields, frameBody, le16, Nat.add_comm 6, List.take_append]
  have hfollowed : (frame p).map some ++ ignored ++ [some 0x00#8] =
      { frameFields p with last := 0x00#8 }.bufferWith (some 0x55#8 :: ignored) := by
    simp [frame, FrameFields.bufferWith, frameFields, frameBody, le16]
  rw [← frameBody_eq_layout, hlong, hfollowed, parse_frameFields_last hlo hhi, parse_frameFields_last hlo hhi]
  exact ⟨rfl, rfl⟩

end Sys2Proof.Machine
end

section
/-! SUPPORT. One changed byte changes a checksum (40_crc.md R121): every part of it is injective. -/

namespace Sys2Proof.Machine

/-! ## The register (40_crc.md R110 to R112) -/

/-- Bit 0 of the polynomial is set, so the shift puts the bit it shifts out into bit 0. -/
theorem getLsbD_zero_crcShift (r : Half) : (crcShift r).getLsbD 0 = r.getLsbD 15 := by
  unfold crcShift
  split
  next htop =>
    rw [htop]
    simp [Config.crcPoly]
  next htop =>
    rw [Bool.eq_false_of_not_eq_true htop]
    simp

theorem crcShift_injective : Function.Injective crcShift := by
  intro r r' h
  have htop : r.getLsbD 15 = r'.getLsbD 15 := by
    rw [← getLsbD_zero_crcShift, h, getLsbD_zero_crcShift]
  have hshift : r <<< 1 = r' <<< 1 := by
    unfold crcShift at h
    rw [htop] at h
    split at h
    · exact (BitVec.xor_left_inj _).1 h
    · exact h
  apply BitVec.eq_of_getElem_eq
  intro i hi
  by_cases hlast : i = 15
  · subst hlast
    simpa using htop
  · have hbit := congrArg (·.getLsbD (i + 1)) hshift
    simpa [show i + 1 < 16 by omega] using hbit

theorem crcShifts_injective (n : Nat) : Function.Injective (crcShifts n) := by
  intro r r' h
  rw [crcShifts_eq_iterate, crcShifts_eq_iterate] at h
  exact crcShift_injective.iterate n h

theorem crcStep_register_injective (b : Byte) : Function.Injective (crcStep · b) :=
  fun _ _ h => (BitVec.xor_left_inj _).1 (crcShifts_injective 8 h)

/-- R110 feeds a byte into the register by an invertible map. -/
theorem crcStep_byte_injective (r : Half) : Function.Injective (crcStep r) := by
  intro b c h
  have hupper := congrArg rev16 ((BitVec.xor_right_inj _).1 (crcShifts_injective 8 h))
  rw [rev16_upper_rev8, rev16_upper_rev8] at hupper
  have hwidth := congrArg (BitVec.setWidth 8) hupper
  simpa using hwidth

theorem crcFeed_register_injective (d : List Byte) : Function.Injective (crcFeed · d) := by
  induction d with
  | nil => exact fun _ _ h => h
  | cons b d ih => exact ih.comp (crcStep_register_injective b)

theorem crcFeed_set_ne {d : List Byte} {i : Nat} {b : Byte} (h : d.set i b ≠ d) (r : Half) :
    crcFeed r (d.set i b) ≠ crcFeed r d := by
  induction d generalizing i r with
  | nil => simp at h
  | cons c d ih =>
    cases i with
    | zero =>
      intro hfeed
      have hbyte : b = c := crcStep_byte_injective r (crcFeed_register_injective d hfeed)
      simp [hbyte] at h
    | succ i => exact ih (by simpa using h) (crcStep r c)

theorem crcFinal_injective : Function.Injective crcFinal := by
  intro r r' h
  have hrev : rev16 r = rev16 r' := (BitVec.xor_left_inj _).1 h
  simpa [rev16] using congrArg BitVec.reverse hrev

/-- Changing one byte, by any value, changes the checksum. -/
theorem checksum_set_ne {d : List Byte} {i : Nat} {b : Byte} (h : d.set i b ≠ d) :
    checksum (d.set i b) ≠ checksum d :=
  fun hsum => crcFeed_set_ne h Config.crcInitValue (crcFinal_injective hsum)

end Sys2Proof.Machine
end

section
/-! SUPPORT. A built frame with one byte changed (42_frame.md R171; 40_crc.md R121). -/

namespace Sys2Proof.Machine

theorem set_ne_of_getElem?_ne {f : List Byte} {i : Nat} {b : Byte} (hi : i < f.length) (hb : f[i]? ≠ some b) :
    f.set i b ≠ f := by
  intro h
  rw [← h, List.getElem?_set_self hi] at hb
  exact hb rfl

theorem fromLe16_inj {lo hi lo' hi' : Byte} : fromLe16 lo hi = fromLe16 lo' hi' ↔ lo = lo' ∧ hi = hi' := by
  refine ⟨fun h => ?_, fun ⟨hlo, hhi⟩ => hlo ▸ hhi ▸ rfl⟩
  simpa using congrArg le16 h

/-! ## Changing a byte changes its field -/

section
variable (p : List Byte) (b : Byte)

theorem set_frame_start : (frame p).set 0 b = { frameFields p with start := b }.bytes := by
  rw [← bytes_frameFields]
  rfl

theorem set_frame_version : (frame p).set 1 b = { frameFields p with version := b }.bytes := by
  rw [← bytes_frameFields]
  rfl

theorem set_frame_payload {k : Nat} (hk : k < p.length) :
    (frame p).set (4 + k) b = { frameFields p with payload := p.set k b }.bytes := by
  rw [← bytes_frameFields]
  simp [FrameFields.bytes, frameFields, Nat.add_comm 4, List.set_append_left, hk]

theorem set_frame_crcLo : (frame p).set (4 + p.length) b = { frameFields p with crcLo := b }.bytes := by
  rw [← bytes_frameFields]
  simp [FrameFields.bytes, frameFields, Nat.add_comm 4]

theorem set_frame_crcHi : (frame p).set (5 + p.length) b = { frameFields p with crcHi := b }.bytes := by
  rw [← bytes_frameFields]
  simp [FrameFields.bytes, frameFields, Nat.add_comm 5]

theorem set_frame_last : (frame p).set (6 + p.length) b = { frameFields p with last := b }.bytes := by
  rw [← bytes_frameFields]
  simp [FrameFields.bytes, frameFields, Nat.add_comm 6]

end

/-! ## The parser on a built frame with one byte changed -/

theorem FrameFields.parse_bytes_of_checksum_ne {x : FrameFields} (hstart : x.start = 0xAA#8) (hlast : x.last = 0x55#8)
    (hversion : x.version = 0x01#8) (hfits : x.fits) (hlo : 1 ≤ x.payload.length) (hhi : x.payload.length ≤ 1024)
    (hcrc : checksum (x.version :: x.lenLo :: x.lenHi :: x.payload) ≠ fromLe16 x.crcLo x.crcHi) :
    parse (x.bytes.map some) = raise .crcMismatch := by
  rw [← bufferWith_nil, parse_bufferWith [] hfits hlo hhi, hstart, hlast, bne_iff_ne.2 hcrc, hversion]
  rfl

section
variable {p : List Byte} (hlo : 1 ≤ p.length) (hhi : p.length ≤ 1024) {b : Byte}
include hlo hhi

theorem parse_set_start (hb : (frame p).set 0 b ≠ frame p) :
    parse (((frame p).set 0 b).map some) = raise .invalidStartByte := by
  have hne : b ≠ 0xAA#8 := by
    rintro rfl
    exact hb rfl
  rw [set_frame_start, ← FrameFields.bufferWith_nil,
    FrameFields.parse_bufferWith (x := { frameFields p with start := b }) [] (frameFields_fits hhi) hlo hhi,
    bne_iff_ne.2 hne]
  rfl

theorem parse_set_version (hb : (frame p).set 1 b ≠ frame p) :
    parse (((frame p).set 1 b).map some) = raise .unsupportedVersion := by
  have hne : b ≠ 0x01#8 := by
    rintro rfl
    exact hb rfl
  rw [set_frame_version, ← FrameFields.bufferWith_nil,
    FrameFields.parse_bufferWith (x := { frameFields p with version := b }) [] (frameFields_fits hhi) hlo hhi,
    bne_iff_ne.2 hne]
  rfl

theorem parse_set_last (hb : (frame p).set (6 + p.length) b ≠ frame p) :
    parse (((frame p).set (6 + p.length) b).map some) = raise .invalidEndByte := by
  have hne : b ≠ 0x55#8 := by
    rintro rfl
    exact hb ((set_frame_last p _).trans (bytes_frameFields p))
  rw [set_frame_last, ← FrameFields.bufferWith_nil, parse_frameFields_last hlo hhi, bne_iff_ne.2 hne]
  rfl

/-- The length field and the CRC field stay, and the checksum of the range becomes another. -/
theorem parse_set_payload {k : Nat} (hk : k < p.length) (hb : (frame p).set (4 + k) b ≠ frame p) :
    parse (((frame p).set (4 + k) b).map some) = raise .crcMismatch := by
  have hbody : (frameBody p).set (k + 3) b ≠ frameBody p := by
    intro h
    have hp : p.set k b = p := by simpa [frameBody, le16] using h
    rw [set_frame_payload p b hk, hp] at hb
    exact hb (bytes_frameFields p)
  have hlen : p.length = (p.set k b).length := List.length_set.symm
  rw [set_frame_payload p b hk]
  exact FrameFields.parse_bytes_of_checksum_ne rfl rfl rfl ((frameFields_fits hhi).trans hlen) (hlen ▸ hlo)
    (hlen ▸ hhi) ((checksum_set_ne hbody).trans_eq (fromLe16_extractLsb' _).symm)

theorem parse_set_crcLo (hb : (frame p).set (4 + p.length) b ≠ frame p) :
    parse (((frame p).set (4 + p.length) b).map some) = raise .crcMismatch := by
  have hne : (frameFields p).crcLo ≠ b := by
    rintro rfl
    exact hb ((set_frame_crcLo p _).trans (bytes_frameFields p))
  rw [set_frame_crcLo]
  exact FrameFields.parse_bytes_of_checksum_ne rfl rfl rfl (frameFields_fits hhi) hlo hhi fun hsum =>
    hne (fromLe16_inj.1 ((fromLe16_extractLsb' _).trans hsum)).1

theorem parse_set_crcHi (hb : (frame p).set (5 + p.length) b ≠ frame p) :
    parse (((frame p).set (5 + p.length) b).map some) = raise .crcMismatch := by
  have hne : (frameFields p).crcHi ≠ b := by
    rintro rfl
    exact hb ((set_frame_crcHi p _).trans (bytes_frameFields p))
  rw [set_frame_crcHi]
  exact FrameFields.parse_bytes_of_checksum_ne rfl rfl rfl (frameFields_fits hhi) hlo hhi fun hsum =>
    hne (fromLe16_inj.1 ((fromLe16_extractLsb' _).trans hsum)).2

end

/-- Settles O33: the changed byte changes one field; a changed payload has another checksum, and a changed CRC field
holds another. -/
theorem corruptionIsDetected : Obligations.CorruptionIsDetected := by
  intro p i b hlo hhi hb
  have hlen := frame_length p
  have hchanged (hi : i < 7 + p.length) : (frame p).set i b ≠ frame p := set_ne_of_getElem?_ne (hlen ▸ hi) hb
  refine ⟨fun h4 h6 => ?_, ?_, ?_, ?_⟩
  · have hset := hchanged (by omega)
    obtain ⟨k, rfl⟩ := Nat.exists_eq_add_of_le h4
    obtain hk | rfl | rfl : k < p.length ∨ k = p.length ∨ k = 1 + p.length := by omega
    · exact parse_set_payload hlo hhi hk hset
    · exact parse_set_crcLo hlo hhi hset
    · rw [← Nat.add_assoc] at hset ⊢
      exact parse_set_crcHi hlo hhi hset
  · rintro rfl
    exact parse_set_start hlo hhi (hchanged (by omega))
  · rintro rfl
    exact parse_set_version hlo hhi (hchanged (by omega))
  · rintro rfl
    exact parse_set_last hlo hhi (hchanged (by omega))

end Sys2Proof.Machine
end

section
/-! SUPPORT. The two channel commands, TX_SEND and RX_START (43_transport.md R180, R181). -/

namespace Sys2Proof.Machine

/-! ## The TX channel's draw (43_transport.md R180) -/

section
variable {s : State}

theorem txDraw_of_cons {x : TxDraw} {xs : List TxDraw} (h : s.txDraws = x :: xs) : s.txDraw = x := by
  simp [State.txDraw, h]

theorem dropDraw_of_cons {x : TxDraw} {xs : List TxDraw} (h : s.txDraws = x :: xs) :
    s.dropDraw = { s with txDraws := xs } := by
  simp [State.dropDraw, h]

theorem dropDraw_of_nil (h : s.txDraws = []) : s.dropDraw = { s with freeDraws := s.freeDraws + 1 } := by
  simp [State.dropDraw, h]

theorem transmit_of_sent (h : s.txDraw = .sent) (d : List Byte) :
    transmit s (d.map some) = .ok (s.dropDraw.sent d) := by
  simp [transmit, h]

theorem transmit_of_failed {k : Nat} (h : s.txDraw = .failed k) {x : List (Option Byte)} {taken : List Byte}
    (hx : x.take (k % x.length) = taken.map some) : transmit s x = .ok (s.dropDraw.sendFailed taken) := by
  simp [transmit, h, hx]

/-- Only the bytes that a listed failure takes have to be written (70_reset_and_hazards.md R251). -/
theorem take_sourceBytes_of_holdsBytes {taken : List Byte} (hlt : taken.length < countOperand s)
    (hb : holdsBytes s.dmem (srcOperand s) taken) :
    (sourceBytes s).take (taken.length % (sourceBytes s).length) = taken.map some := by
  rw [length_sourceBytes, Nat.mod_eq_of_lt hlt, sourceBytes, Memory.readBytes_take _ _ _ _ hlt.le,
    Memory.readBytes_eq_map_some _ _ _ hb]

end

/-! ## The commands -/

theorem channelUsable_of_fatal {s : State} (hf : s.fatal = true) : channelUsable s = raise .ioFailure := by
  rw [channelUsable, hf, raiseIf_true]

theorem channelUsable_of_not_fatal {s : State} (hf : s.fatal = false) : channelUsable s = .ok () := by
  rw [channelUsable, hf, raiseIf_false]

section
variable {s : State} (h : s.rxArmed = false)
include h

/-- FATAL is the first check of both channel commands (44_control.md R212). -/
theorem raises_ioFailure_of_fatal {i : Instr} (hi : i = .txSend ∨ i = .rxStart) (hf : s.fatal = true) :
    raises i s .ioFailure := by
  rcases hi with rfl | rfl
  all_goals
    refine (issue_free _ h).trans ?_
    rw [channelUsable_of_fatal hf]
    rfl

variable (hf : s.fatal = false)
include hf

theorem raises_txSend_outOfRange (hr : 4096 < srcOperand s + countOperand s) : raises .txSend s .addressRange := by
  refine (issue_free _ h).trans ?_
  rw [channelUsable_of_not_fatal hf, ok_bind, checkRange_of_lt hr]
  rfl

theorem raises_rxStart_outOfRange (hr : 3072 < s.arg2.toNat) : raises .rxStart s .addressRange := by
  have hspan : 4096 < dstOperand s + Config.rxDstSpan := Nat.add_lt_add_right hr 1024
  refine (issue_free _ h).trans ?_
  rw [channelUsable_of_not_fatal hf, ok_bind, checkRange_of_lt hspan]
  rfl

theorem exec_rxStart (hr : s.arg2.toNat ≤ 3072) : exec .rxStart s = .next s.arm := by
  have hspan : dstOperand s + Config.rxDstSpan ≤ 4096 := Nat.add_le_add_right hr 1024
  refine (issue_free _ h).trans ?_
  rw [channelUsable_of_not_fatal hf, ok_bind, checkRange_of_le hspan]
  rfl

variable (hr : srcInRange s)
include hr

theorem exec_txSend_of_count_eq_zero (hn : countOperand s = 0) : exec .txSend s = .next (s.sent []) := by
  refine (issue_free _ h).trans ?_
  rw [channelUsable_of_not_fatal hf, ok_bind, checkRange_of_le hr, ok_bind, if_pos hn]
  rfl

theorem exec_txSend_of_transmit (hn : 1 ≤ countOperand s) {t : State} (ht : transmit s (sourceBytes s) = .ok t) :
    exec .txSend s = .next t := by
  refine (issue_free _ h).trans ?_
  rw [channelUsable_of_not_fatal hf, ok_bind, checkRange_of_le hr, ok_bind, if_neg (by omega)]
  exact congrArg (complete s) ht

theorem exec_txSend_of_sent {d : List Byte} (hn : 1 ≤ countOperand s) (hd : sourceIs s d) (hx : s.txDraw = .sent) :
    exec .txSend s = .next (s.dropDraw.sent d) :=
  exec_txSend_of_transmit h hf hr hn (sourceBytes_of_sourceIs hd ▸ transmit_of_sent hx d)

theorem exec_txSend_of_failed {k : Nat} {taken : List Byte} (hn : 1 ≤ countOperand s) (hx : s.txDraw = .failed k)
    (htaken : (sourceBytes s).take (k % (sourceBytes s).length) = taken.map some) :
    exec .txSend s = .next (s.dropDraw.sendFailed taken) :=
  exec_txSend_of_transmit h hf hr hn (transmit_of_failed hx htaken)

/-- With no draw listed the channel's free draw decides (log 5). -/
theorem exec_txSend_of_nil {d : List Byte} (hn : 1 ≤ countOperand s) (hd : sourceIs s d) (hx : s.txDraws = []) :
    exec .txSend s = .next ({ s with freeDraws := s.freeDraws + 1 }.sent d) ∨
      ∃ k, k < countOperand s ∧
        exec .txSend s = .next ({ s with freeDraws := s.freeDraws + 1 }.sendFailed (d.take k)) := by
  rw [← dropDraw_of_nil hx]
  cases hdraw : s.txDraw with
  | sent => exact .inl (exec_txSend_of_sent h hf hr hn hd hdraw)
  | failed k =>
    refine .inr ⟨k % countOperand s, Nat.mod_lt _ hn, exec_txSend_of_failed h hf hr hn hdraw ?_⟩
    rw [length_sourceBytes, sourceBytes_of_sourceIs hd, List.map_take]

end

/-- Settles O34: the checks in order, then the answer of the draw, listed or free. -/
theorem txSendHandsOver : Obligations.TxSendHandsOver := by
  refine ⟨hasOpcode_opcode .txSend, busyFirst_exec .txSend, fun s h =>
    ⟨raises_ioFailure_of_fatal h (.inl rfl), raises_txSend_outOfRange h, fun hf hr => ⟨fun hn => ?_,
      fun d ds hn hd hx => ?_, fun k taken ds hk hlen hb hx => ?_, fun d => exec_txSend_of_nil h hf hr⟩⟩⟩
  · have harg : s.arg1 = 0#32 := BitVec.eq_of_toNat_eq hn
    rw [exec_txSend_of_count_eq_zero h hf hr hn, State.sent, List.append_nil, harg]
    rfl
  · rw [exec_txSend_of_sent h hf hr hn hd (txDraw_of_cons hx), dropDraw_of_cons hx]
    rfl
  · subst hlen
    rw [exec_txSend_of_failed h hf hr (by omega) (txDraw_of_cons hx) (take_sourceBytes_of_holdsBytes hk hb),
      dropDraw_of_cons hx]
    rfl

/-- Settles O35: the span at RX_DST ends at 4096 exactly when ARG2 is 3072, and what is left is `State.arm`. -/
theorem rxStartArms : Obligations.RxStartArms :=
  ⟨hasOpcode_opcode .rxStart, busyFirst_exec .rxStart, fun _ h =>
    ⟨raises_ioFailure_of_fatal h (.inr rfl), raises_rxStart_outOfRange h, exec_rxStart h⟩⟩

end Sys2Proof.Machine
end

section
/-! SUPPORT. One event of the receive machine (43_transport.md R184 to R193): what a byte does in each receive state,
and which codes it can end a receive with. -/

namespace Sys2Proof.Machine

variable {s : State}

/-! ## Events that are not enabled, expiry and failure -/

theorem takeTurn_of_not_armed (h : s.rxArmed = false) {e : Turn} (he : isRxEvent e) :
    takeTurn e s = .refused .eventNotEnabled := by
  rcases he with rfl | rfl | rfl
  · simp [takeTurn, rxByteEvent, h]
  · simp [takeTurn, rxExpireEvent, h]
  · simp [takeTurn, rxIoFailEvent, h]

theorem takeTurn_rxExpire_waitStart (h : s.rxArmed = true) (hs : s.rxState = .waitStart) :
    takeTurn .rxExpire s = .next (receiveEnded .timeout s) := by
  rw [takeTurn, rxExpireEvent, if_pos h, if_pos hs]
  rfl

theorem takeTurn_rxExpire_later (h : s.rxArmed = true) (hs : s.rxState ≠ .waitStart) :
    takeTurn .rxExpire s = .next (receiveEnded .incomplete s) := by
  rw [takeTurn, rxExpireEvent, if_pos h, if_neg hs]
  rfl

theorem takeTurn_rxIoFail (h : s.rxArmed = true) :
    takeTurn .rxIoFail s = .next (receiveEnded .ioFailure { s with fatal := true }) := by
  rw [takeTurn, rxIoFailEvent, if_pos h]
  rfl

/-- Settles O40: the branch is on WAIT_START, which neither HEADER nor BODY is. -/
theorem rxExpireAndFail : Obligations.RxExpireAndFail := by
  refine fun s h => ⟨takeTurn_rxExpire_waitStart h, fun hs => takeTurn_rxExpire_later h ?_, takeTurn_rxIoFail h⟩
  rcases hs with hs | hs <;> rw [hs] <;> decide

/-! ## A byte, by receive state -/

theorem takeTurn_rxByte_of_nil (h : s.rxIn = []) : takeTurn .rxByte s = .refused .eventNotEnabled := by
  simp [takeTurn, rxByteEvent, h]

/-- How many bytes may be held in a state without anything but collecting them: the fourth byte ends the header, byte
7 + L the frame (43_transport.md R186, R187). -/
def collectLimit (s : State) : Nat :=
  match s.rxState with
  | .idle => 0
  | .waitStart => 0
  | .header => 3
  | .body => 6 + s.rxL.toNat

section
variable {b : Byte} {rest : List Byte} (h : s.rxArmed = true) (hin : s.rxIn = b :: rest)
include h hin

theorem takeTurn_rxByte : takeTurn .rxByte s = takeRxByte { s with rxIn := rest } b := by
  simp [takeTurn, rxByteEvent, h, hin]

theorem rxByte_waitStart_marker (hs : s.rxState = .waitStart) (hb : b = 0xAA#8) :
    takeTurn .rxByte s = .next { s with rxIn := rest, rxBuf := [b], rxState := .header, rxTimer := some s.rxTmo } := by
  rw [takeTurn_rxByte h hin]
  simp only [takeRxByte, hs]
  exact if_pos hb

theorem rxByte_waitStart_other (hs : s.rxState = .waitStart) (hb : b ≠ 0xAA#8) :
    takeTurn .rxByte s = .next (receiveEnded .unexpectedByte { s with rxIn := rest }) := by
  rw [takeTurn_rxByte h hin]
  simp only [takeRxByte, hs]
  exact if_neg hb

/-- Below the limit of its state a byte is collected and nothing else happens. -/
theorem rxByte_collects (hlim : s.rxCnt < collectLimit s) :
    takeTurn .rxByte s = .next { s with rxIn := rest, rxBuf := s.rxBuf ++ [b] } := by
  have hlen : (s.rxBuf ++ [b]).length = s.rxCnt + 1 := List.length_append
  rw [takeTurn_rxByte h hin]
  unfold collectLimit at hlim
  split at hlim
  next => omega
  next => omega
  next hs =>
    simp only [takeRxByte, hs, rxByteHeader]
    rw [if_neg (by omega)]
  next hs =>
    have hmore : (s.rxBuf ++ [b]).length ≠ 7 + s.rxL.toNat := by omega
    simp only [takeRxByte, hs, rxByteBody]
    exact if_neg hmore

/-- The fourth byte completes the length field. -/
theorem rxByte_header_fourth (hs : s.rxState = .header) (hcnt : s.rxCnt = 3) :
    takeTurn .rxByte s =
      if badLength (declaredLength (s.rxBuf ++ [b])) then
        .next (receiveEnded .lengthOutOfRange { s with rxIn := rest })
      else .next { s with
        rxIn := rest, rxBuf := s.rxBuf ++ [b], rxL := BitVec.ofNat 16 (declaredLength (s.rxBuf ++ [b])),
        rxState := .body, rxTimer := some s.rxTmo } := by
  have hlen : (s.rxBuf ++ [b]).length = 4 := by rw [List.length_append]; exact congrArg (· + 1) hcnt
  rw [takeTurn_rxByte h hin]
  simp only [takeRxByte, hs, rxByteHeader]
  rw [if_pos hlen, ← fromLe16_getD_toNat, BitVec.ofNat_toNat, BitVec.setWidth_eq]
  rfl

theorem rxByte_header_legal (hs : s.rxState = .header) (hcnt : s.rxCnt = 3)
    (hL : 1 ≤ declaredLength (s.rxBuf ++ [b]) ∧ declaredLength (s.rxBuf ++ [b]) ≤ 1024) :
    takeTurn .rxByte s = .next { s with
      rxIn := rest, rxBuf := s.rxBuf ++ [b], rxL := BitVec.ofNat 16 (declaredLength (s.rxBuf ++ [b])),
      rxState := .body, rxTimer := some s.rxTmo } := by
  rw [rxByte_header_fourth h hin hs hcnt, (badLength_eq_false_iff _).2 hL]
  rfl

theorem rxByte_header_illegal (hs : s.rxState = .header) (hcnt : s.rxCnt = 3)
    (hL : declaredLength (s.rxBuf ++ [b]) < 1 ∨ 1024 < declaredLength (s.rxBuf ++ [b])) :
    takeTurn .rxByte s = .next (receiveEnded .lengthOutOfRange { s with rxIn := rest }) := by
  rw [rxByte_header_fourth h hin hs hcnt, badLength, decide_eq_true hL]
  rfl

theorem rxByte_body_last (hs : s.rxState = .body) (hcnt : s.rxCnt + 1 = 7 + s.rxL.toNat) :
    takeTurn .rxByte s = finishFrame { s with rxIn := rest } (s.rxBuf ++ [b]) := by
  have hlen : (s.rxBuf ++ [b]).length = 7 + s.rxL.toNat := List.length_append.trans hcnt
  rw [takeTurn_rxByte h hin]
  simp only [takeRxByte, hs, rxByteBody]
  exact if_pos hlen

end

/-- Settles O37: the branch on the start marker. -/
theorem rxByteInWaitStart : Obligations.RxByteInWaitStart := fun _ _ _ h hs hin =>
  ⟨rxByte_waitStart_marker h hin hs, rxByte_waitStart_other h hin hs⟩

/-- Settles O38: below the limit of HEADER a byte is only collected; the fourth is tested as the parser would. -/
theorem rxByteInHeader : Obligations.RxByteInHeader := fun s _ _ h hs _ hin =>
  ⟨fun hlt => rxByte_collects h hin (by simpa only [collectLimit, hs] using hlt),
    fun hcnt hlo hhi => rxByte_header_legal h hin hs hcnt ⟨hlo, hhi⟩, rxByte_header_illegal h hin hs⟩

/-! ## The whole frame -/

theorem finishFrame_of_firstFailure_eq_some {f : List Byte} {e : ResultCode}
    (he : firstFailure (parseChecks f) = some e) : finishFrame s f = .next (receiveEnded e s) := by
  rw [finishFrame, parse_of_firstFailure_eq_some he]
  rfl

theorem finishFrame_of_parse_eq_ok {f : List Byte} {L : Nat} {rx : Half} (hp : parse (f.map some) = .ok (L, rx)) :
    finishFrame s f = .next (receiveEnded .ok (s.deliverPayload ((f.drop 4).take L) L rx)) := by
  rw [finishFrame, hp]
  rfl

theorem finishFrame_of_firstFailure_eq_none {f : List Byte} (hnone : firstFailure (parseChecks f) = none) :
    finishFrame s f = .next (receiveEnded .ok
      (s.deliverPayload ((f.drop 4).take (declaredLength f)) (declaredLength f) (BitVec.ofNat 16 (crcField f)))) :=
  finishFrame_of_parse_eq_ok (parse_of_firstFailure_eq_none hnone)

/-- A safe state in BODY has an armed receive and holds a header that declares RX_L, a legal length. -/
theorem SafeState.body_facts (h : SafeState s) (hs : s.rxState = .body) :
    s.rxArmed = true ∧ 4 ≤ s.rxCnt ∧ s.rxCnt ≤ 6 + s.rxL.toNat ∧ 1 ≤ s.rxL.toNat ∧ s.rxL.toNat ≤ 1024 ∧
      byteNat s.rxBuf 0 = 0xAA ∧ declaredLength s.rxBuf = s.rxL.toNat := by
  have hfit := h.buffer
  simp only [bufferFits, hs] at hfit
  exact ⟨h.armed.2 (by rw [hs]; decide), hfit⟩

/-- Settles O39: the frame declares RX_L, which the header latched, so the payload the parser accepts is the one the
receive machine counted. -/
theorem rxByteInBody : Obligations.RxByteInBody := by
  rintro s b rest f h hs hin rfl
  obtain ⟨ha, hlo, -, -, -, -, hdecl⟩ := h.body_facts hs
  have hlen : (s.rxBuf ++ [b]).length = s.rxCnt + 1 := List.length_append
  rw [hlen]
  refine ⟨fun hlt => rxByte_collects ha hin (by simp only [collectLimit, hs]; omega), fun hlast => ?_⟩
  rw [rxByte_body_last ha hin hs hlast]
  refine ⟨fun e he => finishFrame_of_firstFailure_eq_some he, fun hnone => ?_⟩
  rw [finishFrame_of_firstFailure_eq_none hnone, declaredLength_append hlo, hdecl]
  exact ⟨_, rfl, storedBytes_writeBytes _ _ _⟩

/-! ## How a byte ends a receive -/

theorem mem_of_firstFailure {cs : List (Bool × ResultCode)} {e : ResultCode} (h : firstFailure cs = some e) :
    (false, e) ∈ cs := by
  induction cs with
  | nil => cases h
  | cons c cs ih =>
    obtain ⟨_ | _, e'⟩ := c
    · obtain rfl : e' = e := by simpa [firstFailure] using h
      exact List.mem_cons_self
    · exact List.mem_cons_of_mem _ (ih h)

/-- On the byte path the start byte and the length have been tested before the frame is whole. -/
theorem firstFailure_of_received {f : List Byte} {e : ResultCode} (hstart : byteNat f 0 = 0xAA)
    (hlen : f.length = 7 + declaredLength f) (hL : 1 ≤ declaredLength f ∧ declaredLength f ≤ 1024)
    (he : firstFailure (parseChecks f) = some e) :
    e = .invalidEndByte ∨ e = .unsupportedVersion ∨ e = .crcMismatch := by
  have hlong : 7 ≤ f.length := by omega
  have hmem := mem_of_firstFailure he
  simp only [parseChecks, hlong, decide_true, hstart, hL, and_self, hlen.ge, List.mem_cons, Prod.mk.injEq,
    Bool.false_eq_true, false_and, List.not_mem_nil, or_false, false_or] at hmem
  tauto

/-- The last byte of a frame always ends the receive: with OK, or with a test the header has not made. -/
theorem SafeState.exists_lastByte_ends (h : SafeState s) (hs : s.rxState = .body) {b : Byte} {rest : List Byte}
    (hin : s.rxIn = b :: rest) (hlast : s.rxCnt + 1 = 7 + s.rxL.toNat) :
    ∃ e u, takeTurn .rxByte s = .next (receiveEnded e u) ∧
      (e = .ok ∨ e = .invalidEndByte ∨ e = .unsupportedVersion ∨ e = .crcMismatch) := by
  obtain ⟨ha, hlo, -, hL, hL', hstart, hdecl⟩ := h.body_facts hs
  have hlen : (s.rxBuf ++ [b]).length = 7 + s.rxL.toNat := List.length_append.trans hlast
  have hdecl' : declaredLength (s.rxBuf ++ [b]) = s.rxL.toNat := (declaredLength_append hlo _).trans hdecl
  have hstart' : byteNat (s.rxBuf ++ [b]) 0 = 0xAA :=
    (byteNat_append (Nat.lt_of_lt_of_le (by decide) hlo) _).trans hstart
  rw [rxByte_body_last ha hin hs hlast]
  cases hf : firstFailure (parseChecks (s.rxBuf ++ [b])) with
  | none => exact ⟨_, _, finishFrame_of_firstFailure_eq_none hf, .inl rfl⟩
  | some e =>
    have he := firstFailure_of_received hstart' (by omega) (by omega) hf
    exact ⟨e, _, finishFrame_of_firstFailure_eq_some hf, .inr he⟩

/-- The codes a byte can end a receive with, by receive state, and how many bytes are held before it (43_transport.md
R193). -/
def endsByteWith (s : State) (e : ResultCode) : Prop :=
  (s.rxState = .waitStart → e = .unexpectedByte) ∧
  (s.rxState = .header → e = .lengthOutOfRange ∧ s.rxCnt = 3) ∧
  (s.rxState = .body →
    (e = .ok ∨ e = .invalidEndByte ∨ e = .unsupportedVersion ∨ e = .crcMismatch) ∧ s.rxCnt + 1 = 7 + s.rxL.toNat)

/-- Everything a byte can do to a safe armed receive: end it, or be collected. -/
inductive RxByteEffect (s : State) (b : Byte) (rest : List Byte) (t : State) : Prop where
  | ended (e : ResultCode) (u : State) (he : endsByteWith s e) (ht : t = receiveEnded e u)
  | collected (st : RxState) (L : Half) (timer : Option Word)
      (ht : t = { s with rxIn := rest, rxBuf := s.rxBuf ++ [b], rxState := st, rxL := L, rxTimer := timer })

theorem SafeState.exists_rxByteEffect (h : SafeState s) (ha : s.rxArmed = true) {b : Byte} {rest : List Byte}
    (hin : s.rxIn = b :: rest) : ∃ t, takeTurn .rxByte s = .next t ∧ RxByteEffect s b rest t := by
  have hfit := h.buffer
  cases hs : s.rxState with
  | idle => exact absurd hs (h.armed.1 ha)
  | waitStart =>
    simp only [bufferFits, hs] at hfit
    by_cases hb : b = 0xAA#8
    · exact ⟨_, rxByte_waitStart_marker ha hin hs hb, .collected .header s.rxL _ (by rw [hfit]; rfl)⟩
    · exact ⟨_, rxByte_waitStart_other ha hin hs hb, .ended _ _ (by simp [endsByteWith, hs]) rfl⟩
  | header =>
    simp only [bufferFits, hs] at hfit
    obtain ⟨-, hcnt, -⟩ := hfit
    rcases hcnt.lt_or_eq with hlt | hcnt
    · exact ⟨_, rxByte_collects ha hin (by simpa only [collectLimit, hs] using hlt), .collected _ _ _ rfl⟩
    · by_cases hL : 1 ≤ declaredLength (s.rxBuf ++ [b]) ∧ declaredLength (s.rxBuf ++ [b]) ≤ 1024
      · exact ⟨_, rxByte_header_legal ha hin hs hcnt hL, .collected _ _ _ rfl⟩
      · exact ⟨_, rxByte_header_illegal ha hin hs hcnt (by omega), .ended _ _ (by simp [endsByteWith, hs, hcnt]) rfl⟩
  | body =>
    obtain ⟨-, -, hhi, -⟩ := h.body_facts hs
    rcases hhi.lt_or_eq with hlt | hcnt
    · exact ⟨_, rxByte_collects ha hin (by simpa only [collectLimit, hs] using hlt), .collected _ _ _ rfl⟩
    · have hlast : s.rxCnt + 1 = 7 + s.rxL.toNat := by omega
      obtain ⟨e, u, ht, he⟩ := h.exists_lastByte_ends hs hin hlast
      exact ⟨_, ht, .ended e u (by simp [endsByteWith, hs, hlast, he]) rfl⟩

/-- Settles O36: an armed receive is out of IDLE, and there a byte that stands in RX_IN is always taken. -/
theorem rxEventsEnabled : Obligations.RxEventsEnabled := by
  intro s h
  cases ha : s.rxArmed with
  | false =>
    have hno {e : Turn} (he : isRxEvent e) : ¬ ∃ t, takeTurn e s = .next t := by simp [takeTurn_of_not_armed ha he]
    exact ⟨iff_of_false (hno (.inl rfl)) (by simp), iff_of_false (hno (.inr (.inl rfl))) (by simp),
      iff_of_false (hno (.inr (.inr rfl))) (by simp), fun _ e he => takeTurn_of_not_armed ha he⟩
  | true =>
    refine ⟨?_, ?_, ?_, by simp⟩
    · cases hin : s.rxIn with
      | nil => simp [takeTurn_rxByte_of_nil hin]
      | cons b rest =>
        obtain ⟨t, ht, -⟩ := h.exists_rxByteEffect ha hin
        simp [ht]
    · by_cases hs : s.rxState = .waitStart
      · simp [takeTurn_rxExpire_waitStart ha hs]
      · simp [takeTurn_rxExpire_later ha hs]
    · simp [takeTurn_rxIoFail ha]

/-- Settles O41: a byte that leaves no receive armed has ended it, with a code of its receive state. -/
theorem receiveOutcomeCodes : Obligations.ReceiveOutcomeCodes := by
  intro s t h ha ht hend
  cases hin : s.rxIn with
  | nil => simp [takeTurn_rxByte_of_nil hin] at ht
  | cons b rest =>
    obtain ⟨t', ht', heffect⟩ := h.exists_rxByteEffect ha hin
    obtain rfl : t' = t := by simpa [ht'] using ht
    rcases heffect with ⟨e, u, he, rfl⟩ | ⟨st, L, timer, rfl⟩
    case ended => exact he
    case collected => exact absurd (ha.symm.trans hend) (by decide)

end Sys2Proof.Machine
end

section
/-! SUPPORT. Runs of the receive machine (43_transport.md section 4): a receive that is only fed ends, and a whole frame
is delivered. -/

namespace Sys2Proof.Machine

/-! ## Runs -/

theorem run_succ {s u : State} (h : step s = .next u) (k : Nat) : core.run (k + 1) s = core.run k u := by
  simp only [Host.Core.run]
  rw [show core.step s = .next u from h]

theorem run_add {s u : State} {m : Nat} (h : core.run m s = .next u) (n : Nat) :
    core.run (m + n) s = core.run n u := by
  induction m generalizing s with
  | zero =>
    obtain rfl : s = u := Host.Outcome.next.inj h
    rw [Nat.zero_add]
  | succ m ih =>
    rw [Nat.add_right_comm]
    simp only [Host.Core.run] at h ⊢
    split at h
    next v hv => exact ih h
    next => cases h
    next => cases h

theorem step_of_schedule {s : State} {e : Turn} {sched : List Turn} (h : s.schedule = e :: sched) :
    step s = takeTurn e { s with schedule := sched } := by
  simp only [step, nextTurn, h]

/-! ## A receive that is only fed ends -/

/-- By induction on the bytes still missing from the longest frame: each byte ends the receive or is one of them. -/
theorem SafeState.exists_run_ended {n : Nat} {s : State} {rest : List Turn} (h : SafeState s) (ha : s.rxArmed = true)
    (hn : 1031 - s.rxCnt = n) (hsched : s.schedule = List.replicate n .rxByte ++ rest) (hin : n ≤ s.rxIn.length) :
    ∃ k t, k ≤ n ∧ core.run k s = .next t ∧ t.rxArmed = false := by
  induction n generalizing s with
  | zero =>
    have hcnt := h.rxCnt_le
    omega
  | succ n ih =>
    have hstep := step_of_schedule hsched
    have hmoved : SafeState { s with schedule := List.replicate n .rxByte ++ rest } :=
      h.of_receiveFields_eq rfl h.memory h.channel
    cases hrx : s.rxIn with
    | nil => simp [hrx] at hin
    | cons b bs =>
      obtain ⟨u, hu, heffect⟩ := hmoved.exists_rxByteEffect ha hrx
      have hrun := run_succ (hstep.trans hu)
      have hsafe : SafeState u := hmoved.takeRxEvent (.inl rfl) hu
      rcases heffect with ⟨e, v, -, rfl⟩ | ⟨st, L, timer, rfl⟩
      case ended => exact ⟨1, _, by omega, hrun 0, rfl⟩
      case collected =>
        have hcnt : (s.rxBuf ++ [b]).length = s.rxCnt + 1 := List.length_append
        have hlen : n ≤ bs.length := by simpa [hrx] using hin
        obtain ⟨k, t, hk, ht, hend⟩ := ih hsafe ha (by rw [State.rxCnt, hcnt]; omega) rfl hlen
        exact ⟨k + 1, t, by omega, (hrun k).trans ht, hend⟩

/-- Settles O42: a safe state holds at most 1030 bytes, and the longest frame has 1031. -/
theorem receiveEndsWithin1031 : Obligations.ReceiveEndsWithin1031 := fun _ _ h ha hsched hin =>
  h.exists_run_ended ha rfl hsched hin

/-! ## A byte sequence fed to the receive machine -/

/-- Fed with `bs`, one `RxByte` turn for each, the machine goes from `s` to `t`, whatever turns and bytes come after
them; the schedule and RX_IN of `s` and `t` themselves play no part. -/
def feeds (s : State) (bs : List Byte) (t : State) : Prop :=
  ∀ sched after, core.run bs.length
      { s with schedule := List.replicate bs.length .rxByte ++ sched, rxIn := bs ++ after } =
    .next { t with schedule := sched, rxIn := after }

theorem feeds_nil (s : State) : feeds s [] s := fun _ _ => rfl

theorem feeds_append {s u t : State} {bs cs : List Byte} (hb : feeds s bs u) (hc : feeds u cs t) :
    feeds s (bs ++ cs) t := by
  intro sched after
  rw [List.length_append, List.replicate_add, List.append_assoc, List.append_assoc, run_add (hb _ _)]
  exact hc sched after

theorem feeds_singleton {s t : State} {b : Byte}
    (h : ∀ sched after, takeTurn .rxByte { s with schedule := sched, rxIn := b :: after } =
      .next { t with schedule := sched, rxIn := after }) : feeds s [b] t :=
  fun sched after => run_succ ((step_of_schedule rfl).trans (h sched after)) 0

theorem feeds_collected {d : List Byte} {s : State} (ha : s.rxArmed = true)
    (hlim : s.rxCnt + d.length ≤ collectLimit s) : feeds s d { s with rxBuf := s.rxBuf ++ d } := by
  induction d generalizing s with
  | nil => simpa using feeds_nil s
  | cons b d ih =>
    rw [List.length_cons] at hlim
    have hfirst : feeds s [b] { s with rxBuf := s.rxBuf ++ [b] } :=
      feeds_singleton fun _ _ => rxByte_collects ha rfl (show s.rxCnt < collectLimit s by omega)
    have hcnt : (s.rxBuf ++ [b]).length = s.rxCnt + 1 := List.length_append
    have hrest := ih (s := { s with rxBuf := s.rxBuf ++ [b] }) ha
      (show (s.rxBuf ++ [b]).length + d.length ≤ collectLimit s by omega)
    simpa using feeds_append hfirst hrest

/-! ## A whole frame (43_transport.md R197) -/

/-- The last byte of a frame that the parser accepts delivers its payload. -/
theorem feeds_last {s : State} (ha : s.rxArmed = true) (hs : s.rxState = .body) (hcnt : s.rxCnt + 1 = 7 + s.rxL.toNat)
    {b : Byte} {L : Nat} {rx : Half} (hparse : parse ((s.rxBuf ++ [b]).map some) = .ok (L, rx)) :
    feeds s [b] (receiveEnded .ok (s.deliverPayload (((s.rxBuf ++ [b]).drop 4).take L) L rx)) :=
  feeds_singleton fun sched after =>
    (rxByte_body_last (s := { s with schedule := sched, rxIn := b :: after }) ha rfl hs hcnt).trans
      (finishFrame_of_parse_eq_ok hparse)

/-- An armed receive in state `st` with the bytes `buf` held, RX_L latched as `L` and its timer just restarted. -/
def State.receiving (s : State) (st : RxState) (L : Half) (buf : List Byte) : State :=
  { s with rxState := st, rxL := L, rxBuf := buf, rxTimer := some s.rxTmo }

/-- The fields up to the length field. -/
def FrameFields.header (x : FrameFields) : List Byte := [x.start, x.version, x.lenLo, x.lenHi]

section
variable {s : State} (ha : s.rxArmed = true) (hs : s.rxState = .waitStart)
include ha hs

/-- The first four bytes of a frame put the machine into BODY with the payload's length latched. -/
theorem feeds_header {x : FrameFields} (hstart : x.start = 0xAA#8) (hfits : x.fits) (hlo : 1 ≤ x.payload.length)
    (hhi : x.payload.length ≤ 1024) :
    feeds s x.header (s.receiving .body (BitVec.ofNat 16 x.payload.length) x.header) := by
  have hdecl : declaredLength x.header = x.payload.length := (fromLe16_toNat _ _).symm.trans hfits
  have hmarker : feeds s [x.start] (s.receiving .header s.rxL [x.start]) :=
    feeds_singleton fun _ _ => rxByte_waitStart_marker ha rfl hs hstart
  have hmiddle : feeds (s.receiving .header s.rxL [x.start]) [x.version, x.lenLo]
      (s.receiving .header s.rxL [x.start, x.version, x.lenLo]) :=
    feeds_collected ha (Nat.le_refl 3)
  have hfourth : feeds (s.receiving .header s.rxL [x.start, x.version, x.lenLo]) [x.lenHi]
      (s.receiving .body (BitVec.ofNat 16 x.payload.length) x.header) := by
    rw [← hdecl] at hlo hhi ⊢
    exact feeds_singleton fun _ _ => rxByte_header_legal ha rfl rfl rfl ⟨hlo, hhi⟩
  exact feeds_append (feeds_append hmarker hmiddle) hfourth

/-- A frame that the parser accepts is delivered with its last byte. -/
theorem feeds_accepted {x : FrameFields} (hstart : x.start = 0xAA#8) (hfits : x.fits) (hlo : 1 ≤ x.payload.length)
    (hhi : x.payload.length ≤ 1024) {rx : Half} (hparse : parse (x.bytes.map some) = .ok (x.payload.length, rx)) :
    feeds s x.bytes (receiveEnded .ok { s with
      dmem := s.dmem.writeBytes s.rxDst.toNat x.payload, rxL := BitVec.ofNat 16 x.payload.length,
      rxLen := BitVec.ofNat 11 x.payload.length, rxCrc := rx }) := by
  have hL : (BitVec.ofNat 16 x.payload.length).toNat = x.payload.length := Nat.mod_eq_of_lt (by omega)
  have hbytes : x.header ++ (x.payload ++ [x.crcLo, x.crcHi]) ++ [x.last] = x.bytes := by
    simp [FrameFields.header, FrameFields.bytes]
  have hpayload : (x.bytes.drop 4).take x.payload.length = x.payload := by simp [FrameFields.bytes]
  have hheld : x.header.length + (x.payload ++ [x.crcLo, x.crcHi]).length =
      6 + (BitVec.ofNat 16 x.payload.length).toNat := by
    simp only [hL, FrameFields.header, List.length_append, List.length_cons, List.length_nil]
    omega
  have hmiddle : feeds (s.receiving .body (BitVec.ofNat 16 x.payload.length) x.header)
      (x.payload ++ [x.crcLo, x.crcHi]) (s.receiving .body (BitVec.ofNat 16 x.payload.length)
        (x.header ++ (x.payload ++ [x.crcLo, x.crcHi]))) := feeds_collected ha hheld.le
  have hcnt : (x.header ++ (x.payload ++ [x.crcLo, x.crcHi])).length + 1 =
      7 + (BitVec.ofNat 16 x.payload.length).toNat := by
    rw [List.length_append, hheld]
    omega
  have hlast : feeds _ [x.last] _ := feeds_last (s := s.receiving .body (BitVec.ofNat 16 x.payload.length)
    (x.header ++ (x.payload ++ [x.crcLo, x.crcHi]))) ha rfl hcnt (hbytes ▸ hparse)
  have hall := feeds_append (feeds_append (feeds_header ha hs hstart hfits hlo hhi) hmiddle) hlast
  simp only [State.receiving, hbytes, hpayload] at hall
  exact hall

theorem feeds_frame {p : List Byte} (hlo : 1 ≤ p.length) (hhi : p.length ≤ 1024) :
    feeds s (frame p) (receiveEnded .ok { s with
      dmem := s.dmem.writeBytes s.rxDst.toNat p, rxL := BitVec.ofNat 16 p.length, rxLen := BitVec.ofNat 11 p.length,
      rxCrc := checksum (frameBody p) }) := by
  rw [← bytes_frameFields]
  exact feeds_accepted ha hs rfl (frameFields_fits hhi) hlo hhi (bytes_frameFields p ▸ parse_frame hlo hhi)

end

/-- Settles O43: the fields of a built frame pass the tests of HEADER and, when the last byte is held, the parser. -/
theorem channelRoundTrip : Obligations.ChannelRoundTrip := by
  intro s p after rest h hs hlo hhi hin hsched
  have ha : s.rxArmed = true := h.armed.2 (by rw [hs]; decide)
  have hlen : (frame p).length = 7 + p.length := frame_length p
  have hrun := feeds_frame ha hs hlo hhi rest after
  rw [frameLayout_eq_frame] at hin ⊢
  rw [hlen, ← hin, ← hsched] at hrun
  rw [crcField_frame hhi, BitVec.ofNat_toNat, BitVec.setWidth_eq]
  exact ⟨_, hrun, storedBytes_writeBytes _ _ _⟩

end Sys2Proof.Machine
end

section
/-! SUPPORT. What the host's CMD write does (44_control.md R210, R211, R214, R216): the decoded command, IllegalCommand
or Busy. -/

namespace Sys2Proof

/-- A row that is found matches the word. -/
theorem exists_row_of_findRow {w : Word} {i : Instr} {t : List OpcodeRow} (h : findRow w t = some i) :
    ∃ row ∈ t, w &&& row.mask = row.pattern ∧ row.instr = i := by
  induction t with
  | nil => cases h
  | cons row t ih =>
    rw [findRow] at h
    split at h
    next hmatch => exact ⟨row, List.mem_cons_self, hmatch, Option.some.inj h⟩
    next =>
      obtain ⟨row', hmem, hrow⟩ := ih h
      exact ⟨row', List.mem_cons_of_mem _ hmem, hrow⟩

theorem opcodeTable_row : ∀ row ∈ opcodeTable, row.mask = 0x000000FF#32 ∧ row.pattern = encode row.instr := by decide

/-- The decoder selects a command by its OPC and by nothing else (30_encoding.md R70 to R72). -/
theorem decode_eq_ok_iff {w : Word} {i : Instr} : decode w = .ok i ↔ opcField w = opcode i := by
  refine ⟨fun h => ?_, decode_of_opcField⟩
  unfold decode at h
  split at h
  next j hfound =>
    cases h
    obtain ⟨row, hmem, hmatch, hinstr⟩ := exists_row_of_findRow hfound
    obtain ⟨hmask, hpattern⟩ := opcodeTable_row row hmem
    rw [hmask, and_opcMask, hpattern, hinstr] at hmatch
    have hopc := congrArg opcField hmatch
    rwa [opcField_encode, opcField, BitVec.setWidth_setWidth_of_le _ (by decide), BitVec.setWidth_eq] at hopc
  next => cases h

end Sys2Proof

namespace Sys2Proof.Machine

theorem not_illegalOpcs_opcode (i : Instr) : ¬ illegalOpcs (opcode i).toNat := by
  unfold illegalOpcs
  cases i <;> decide

theorem issueCommand_of_decode {w : Word} {i : Instr} (h : decode w = .ok i) (s : State) :
    issueCommand w s = exec i s := by
  simp only [issueCommand, h]

theorem issueCommand_of_illegalOpcs {w : Word} (h : illegalOpcs (w.setWidth 8).toNat) (s : State) :
    issueCommand w s = issueIllegal s := by
  cases hd : decode w with
  | ok i =>
    have hopc : w.setWidth 8 = opcode i := decode_eq_ok_iff.1 hd
    exact absurd (hopc ▸ h) (not_illegalOpcs_opcode i)
  | error e => simp only [issueCommand, hd]

/-- Busy comes before the decoding (44_control.md R211, R215). -/
theorem issueCommand_busy {s : State} (h : s.rxArmed = true) (w : Word) :
    issueCommand w s = .next (s.raised .busy) := by
  unfold issueCommand
  split
  next i _ => exact exec_busy i h
  next => exact issue_busy _ h

/-- CMD stands at offset 0 (10_state.md R20). -/
theorem hostAct_cmd (s : State) (w : Word) : hostAct s (.access (.wr32 0x000 w)) = issueCommand w s := rfl

theorem hostAct_writeReg (s : State) {r : HostReg} (hr : r ≠ .cmd) (w : Word) :
    hostAct s (.access (.wr32 (regOffset r) w)) = .next (s.writeReg w r) := by
  have hlt := regOffset_lt r
  have hword : regOffset r % 4 = 0 := by cases r <;> rfl
  rw [hostAct_wr32 s w hword (by omega), writeOffset_regOffset hr]

/-- Settles O3: no row of the opcode map has an illegal OPC, so the word goes to `issueIllegal`. -/
theorem illegalOpcodesRaise : Obligations.IllegalOpcodesRaise := by
  intro s w hopc h
  rw [hostAct_cmd, issueCommand_of_illegalOpcs hopc, issueIllegal, issue_free _ h]
  rfl

/-- Settles O5: Busy stands before the decoding, and the other accesses do not look at RX_ARMED. -/
theorem busyIsPrecise : Obligations.BusyIsPrecise := by
  intro s h
  refine ⟨issueCommand_busy h, fun w =>
    ⟨hostAct_writeReg s (r := .arg0) (by decide) w, hostAct_writeReg s (r := .arg1) (by decide) w,
      hostAct_writeReg s (r := .arg2) (by decide) w, hostAct_writeReg s (r := .crc) (by decide) w,
      fun a b ha => ?_, fun a b ha hb => ?_, fun _ => hostAct_rd32 s⟩⟩
  · obtain ⟨hwrite, -, -⟩ := hostDmemAccess s a ha
    exact hwrite b
  · obtain ⟨-, hread, -⟩ := hostDmemAccess s a ha
    exact hread b hb

/-- Settles O4: the host's turn is its program's next action, and a CMD write is the issue of its word. -/
theorem stepRunsTheDecodedCommand : Obligations.StepRunsTheDecodedCommand := by
  intro s rest
  have hact : ∀ act : HostAction, s.schedule = .host :: rest → s.hostProgram[s.hostPos]? = some act →
      step s = hostAct { s with schedule := rest, hostPos := s.hostPos + 1 } act := by
    intro act hs hp
    rw [step_of_schedule hs]
    simp only [takeTurn, hostTurn, hp]
  refine ⟨fun _ => step_of_schedule, hact, fun w i _ hs hp hd => ?_⟩
  rw [hact _ hs hp, hostAct_cmd, issueCommand_of_decode hd]

/-- Settles O11: NOP's pseudocode has no check, and ends with the code OK. -/
theorem nopClearsErr : Obligations.NopClearsErr :=
  ⟨hasOpcode_opcode .nop, busyFirst_exec .nop, fun _ => issue_free _⟩

end Sys2Proof.Machine
end

section
/-! SUPPORT. The checks of the commands: FATAL stops the two channel commands alone, and every range is checked with an
exact sum (44_control.md R212, R213). -/

namespace Sys2Proof.Machine

/-! ## FATAL (44_control.md R212) -/

theorem complete_withFatal (b : Bool) (s : State) (body : Except Stop State) :
    complete { s with fatal := b } ((fun t => { t with fatal := b }) <$> body) = withFatal b (complete s body) := by
  match body with
  | .ok t => rfl
  | .error (.raise e) => rfl
  | .error (.fault f) => rfl

/-- A command whose pseudocode computes the same with another FATAL, but for FATAL itself, is issued to the same
outcome with that FATAL. -/
theorem issue_withFatal (b : Bool) (s : State) {body body' : Except Stop State}
    (hb : body' = (fun t => { t with fatal := b }) <$> body) :
    issue { s with fatal := b } body' = withFatal b (issue s body) := by
  subst hb
  rcases Bool.eq_false_or_eq_true s.rxArmed with ha | ha
  · rw [issue_busy body ha]
    exact issue_busy _ ha
  · rw [issue_free body ha, ← complete_withFatal]
    exact issue_free _ ha

/-- Only the channel commands read FATAL; the others build their next state in their last line (`map_bind` goes
there). -/
theorem exec_withFatal (b : Bool) (s : State) {i : Instr} (htx : i ≠ .txSend) (hrx : i ≠ .rxStart) :
    exec i { s with fatal := b } = withFatal b (exec i s) := by
  cases i
  case txSend => exact absurd rfl htx
  case rxStart => exact absurd rfl hrx
  case nop | crcInit | crcByte | crcFinal => exact issue_withFatal b s rfl
  all_goals
    refine issue_withFatal b s ?_
    simp only [map_bind]
    rfl

/-- Settles O6: FATAL is the first check of the channel commands and no other command reads it. -/
theorem fatalBlocksOnlyTheChannel : Obligations.FatalBlocksOnlyTheChannel :=
  ⟨fun _ _ hi h => raises_ioFailure_of_fatal h hi, fun s _ b htx hrx => exec_withFatal b s htx hrx⟩

/-! ## Ranges (44_control.md R213, R215) -/

/-- The commands with a source range, but for TX_SEND, check it first. -/
theorem raises_source_outOfRange {s : State} (h : s.rxArmed = false) (hr : 4096 < srcOperand s + countOperand s)
    {i : Instr}
    (hi : i ∈ [Instr.crcBlock, .varintDec, .bytesEnc, .bytesDec, .stringEnc, .stringDec, .frameBuild, .frameParse]) :
    raises i s .addressRange := by
  have hsource := sourceForPrefixing_of_source_outOfRange hr
  simp only [List.mem_cons, List.not_mem_nil, or_false] at hi
  rcases hi with rfl | rfl | rfl | rfl | rfl | rfl | rfl | rfl
  · exact exec_crcBlock_outOfRange h hr
  · exact varintDec_decodesBy.raises_addressRange h hr
  · exact raises_of_sourceForPrefixing h (.inl rfl) hsource
  · exact bytesDec_decodesBy.raises_addressRange h hr
  · exact raises_of_sourceForPrefixing h (.inr rfl) hsource
  · exact stringDec_decodesBy.raises_addressRange h hr
  · exact raises_frameBuild_source_outOfRange h hr
  · exact frameParse_decodesBy.raises_addressRange h hr

/-- Settles O7: each command's range checks, from the laws of the commands. -/
theorem rangeChecksRaise : Obligations.RangeChecksRaise := by
  intro s h
  refine ⟨fun i hi hr => raises_source_outOfRange h hr hi, raises_txSend_outOfRange h, raises_varintEnc_outOfRange h,
    fun i hi hr hd => ?_, raises_frameBuild_destination_outOfRange h, raises_rxStart_outOfRange h⟩
  have henc : i = .bytesEnc ∨ i = .stringEnc := by simpa using hi
  exact raises_of_sourceForPrefixing h henc (sourceForPrefixing_of_destination_outOfRange hr hd)

end Sys2Proof.Machine
end

section
/-! SUPPORT. Where every DMEM byte has been written no command meets the model's fault (70_reset_and_hazards.md R251),
so every CMD write ends in a next state (44_control.md R210, R214). -/

namespace Sys2Proof.Machine

/-! ## Computations without a fault -/

/-- A computation does not stop with the model's fault; it may raise a code. -/
def faultFree {α : Type} (x : Except Stop α) : Prop := ∀ f, x ≠ .error (.fault f)

section
variable {α β : Type}

theorem faultFree_ok (a : α) : faultFree (.ok a : Except Stop α) := nofun

theorem faultFree_raise (e : ResultCode) : faultFree (raise e : Except Stop α) := nofun

theorem faultFree_raiseIf (c : Bool) (e : ResultCode) : faultFree (raiseIf c e) := by
  cases c
  · exact faultFree_ok ()
  · exact faultFree_raise e

theorem faultFree_bind {x : Except Stop α} {f : α → Except Stop β} (hx : faultFree x)
    (hf : ∀ a, x = .ok a → faultFree (f a)) : faultFree (x >>= f) := by
  intro e h
  rcases (bind_eq_error _ _ _).1 h with h | ⟨a, ha, h⟩
  · exact hx e h
  · exact hf a ha e h

/-- What stands behind a range check may use that the range lies in DMEM. -/
theorem faultFree_checkRange_bind {a n : Nat} {f : Unit → Except Stop β} (hf : a + n ≤ 4096 → faultFree (f ())) :
    faultFree (checkRange a n >>= f) :=
  faultFree_bind (faultFree_raiseIf _ _) fun _ hr => hf ((checkRange_eq_ok a n ()).1 hr)

end

theorem exists_issue_eq_next {s : State} {body : Except Stop State} (hb : faultFree body) :
    ∃ t, issue s body = .next t := by
  cases ha : s.rxArmed with
  | true => exact ⟨_, issue_busy body ha⟩
  | false =>
    rw [issue_free _ ha]
    match body, hb with
    | .ok t, _ => exact ⟨t, rfl⟩
    | .error (.raise e), _ => exact ⟨s.raised e, rfl⟩
    | .error (.fault f), hb => exact absurd rfl (hb f)

/-! ## The decoders on written bytes -/

theorem faultFree_decodeUvarintFrom (d : List Byte) (value i : Nat) :
    faultFree (decodeUvarintFrom value i (d.map some)) := by
  induction d generalizing value i with
  | nil => exact faultFree_raise _
  | cons b d ih =>
    simp only [List.map_cons, decodeUvarintFrom, useByte_some, ok_bind]
    split
    · exact faultFree_raise _
    · split
      · exact ih _ _
      · split
        · exact faultFree_raise _
        · exact faultFree_ok _

theorem faultFree_decodeBytes (d : List Byte) : faultFree (decodeBytes (d.map some)) :=
  faultFree_bind (faultFree_decodeUvarintFrom d 0 0) fun _ _ =>
    faultFree_bind (faultFree_raiseIf _ _) fun _ _ => faultFree_ok _

theorem faultFree_decodeString (d : List Byte) : faultFree (decodeString (d.map some)) := by
  refine faultFree_bind (faultFree_decodeBytes d) fun r _ => ?_
  simp only [← List.map_drop, ← List.map_take, useAll_map_some, ok_bind]
  exact faultFree_bind (faultFree_raiseIf _ _) fun _ _ => faultFree_ok _

theorem faultFree_runChecks (cs : List (Bool × ResultCode)) : faultFree (runChecks cs) := by
  induction cs with
  | nil => exact faultFree_ok ()
  | cons c cs ih => exact faultFree_bind (faultFree_raiseIf _ _) fun _ _ => ih

theorem faultFree_parseReport (d : List Byte) : faultFree (parseReport (d.map some)) := by
  rw [parseReport, parse_map_some]
  exact faultFree_bind (faultFree_bind (faultFree_runChecks _) fun _ _ => faultFree_ok _) fun _ _ => faultFree_ok _

theorem faultFree_transmit (s : State) (d : List Byte) : faultFree (transmit s (d.map some)) := by
  cases hx : s.txDraw with
  | sent => rw [transmit_of_sent hx]; exact faultFree_ok _
  | failed k => rw [transmit_of_failed hx List.map_take.symm]; exact faultFree_ok _

/-! ## The commands where DMEM is written -/

section
variable {s : State} (hw : ∀ a, a < 4096 → (s.dmem.read a).isSome = true)
include hw

theorem exists_readBytes_eq_map_some (hr : srcInRange s) :
    ∃ d : List Byte, s.dmem.readBytes (srcOperand s) (countOperand s) = d.map some := by
  cases hx : useAll (s.dmem.readBytes (srcOperand s) (countOperand s)) with
  | ok d => exact ⟨d, (useAll_eq_ok _ d).1 hx⟩
  | error e =>
    obtain ⟨hnone, -⟩ := (useAll_eq_error _ e).1 hx
    obtain ⟨i, hi⟩ := List.mem_iff_getElem?.1 hnone
    rw [Memory.readBytes_getElem?] at hi
    split at hi
    next hlt =>
      have hwritten := hw (srcOperand s + i) ((Nat.add_lt_add_left hlt _).trans_le hr)
      rw [Option.some.inj hi] at hwritten
      cases hwritten
    next => cases hi

/-- Behind its range check the source is used as written bytes. -/
theorem faultFree_source_bind {α : Type} {f : Unit → Except Stop α}
    (hf : ∀ d : List Byte, s.dmem.readBytes (srcOperand s) (countOperand s) = d.map some → faultFree (f ())) :
    faultFree (checkRange (srcOperand s) (countOperand s) >>= f) := by
  refine faultFree_checkRange_bind fun hr => ?_
  obtain ⟨d, hd⟩ := exists_readBytes_eq_map_some hw hr
  exact hf d hd

theorem faultFree_sourceForPrefixing : faultFree (sourceForPrefixing s) := by
  refine faultFree_source_bind hw fun d hd => faultFree_checkRange_bind fun _ => ?_
  rw [hd, useAll_map_some]
  exact faultFree_ok d

theorem decodesBy.exists_exec_eq_next {i : Instr} {dec : List (Option Byte) → Except Stop (Nat × Nat)}
    (hi : decodesBy i dec) (hdec : ∀ d : List Byte, faultFree (dec (d.map some))) : ∃ t, exec i s = .next t := by
  rw [hi s]
  refine exists_issue_eq_next (faultFree_source_bind hw fun d hd => ?_)
  rw [sourceBytes, hd]
  exact faultFree_bind (hdec d) fun _ _ => faultFree_ok _

/-- A command meets no byte it could not use: what it uses lies in its source range, which it checks first. -/
theorem exists_exec_eq_next (i : Instr) : ∃ t, exec i s = .next t := by
  cases i
  case nop | crcInit | crcByte | crcFinal => exact exists_issue_eq_next (faultFree_ok _)
  case crcBlock =>
    refine exists_issue_eq_next (faultFree_source_bind hw fun d hd => ?_)
    rw [hd, useAll_map_some]
    exact faultFree_ok _
  case varintEnc => exact exists_issue_eq_next (faultFree_checkRange_bind fun _ => faultFree_ok _)
  case varintDec => exact varintDec_decodesBy.exists_exec_eq_next hw fun d => faultFree_decodeUvarintFrom d 0 0
  case bytesDec => exact bytesDec_decodesBy.exists_exec_eq_next hw faultFree_decodeBytes
  case stringDec => exact stringDec_decodesBy.exists_exec_eq_next hw faultFree_decodeString
  case frameParse => exact frameParse_decodesBy.exists_exec_eq_next hw faultFree_parseReport
  case bytesEnc =>
    exact exists_issue_eq_next (faultFree_bind (faultFree_sourceForPrefixing hw) fun _ _ => faultFree_ok _)
  case stringEnc =>
    exact exists_issue_eq_next (faultFree_bind (faultFree_sourceForPrefixing hw) fun _ _ =>
      faultFree_bind (faultFree_raiseIf _ _) fun _ _ => faultFree_ok _)
  case frameBuild =>
    refine exists_issue_eq_next (faultFree_source_bind hw fun d hd => faultFree_checkRange_bind fun _ =>
      faultFree_bind (faultFree_raiseIf _ _) fun _ _ => ?_)
    rw [hd, useAll_map_some]
    exact faultFree_ok _
  case txSend =>
    refine exists_issue_eq_next (faultFree_bind (faultFree_raiseIf _ _) fun _ _ =>
      faultFree_source_bind hw fun d hd => ?_)
    split
    · exact faultFree_ok _
    · rw [hd]
      exact faultFree_transmit s d
  case rxStart =>
    exact exists_issue_eq_next (faultFree_bind (faultFree_raiseIf _ _) fun _ _ =>
      faultFree_checkRange_bind fun _ => faultFree_ok _)

end

/-- Settles O9: an issue is never refused, and on a written DMEM neither a command nor the illegal opcode faults. -/
theorem everyIssueEnds : Obligations.EveryIssueEnds := by
  refine fun s w => ⟨issueCommand_not_refused w s, fun hw => ?_⟩
  unfold issueCommand
  split
  next i _ => exact exists_exec_eq_next hw i
  next => exact exists_issue_eq_next (faultFree_raise _)

end Sys2Proof.Machine
end

section
/-! SUPPORT. Errors are precise (60_exceptions.md R224, R225): everything a TX_SEND can end with, and that a raised code
changes STATUS.ERR alone. -/

namespace Sys2Proof.Machine

variable {s t : State}

/-! ## What a TX_SEND can end with (43_transport.md R180) -/

theorem holdsBytes_of_readBytes_eq {m : Memory} {a : Nat} {d : List Byte}
    (h : m.readBytes a d.length = d.map some) : holdsBytes m a d := by
  intro i hi
  have hget : (m.readBytes a d.length)[i]? = (d.map some)[i]? := by rw [h]
  rw [Memory.readBytes_getElem?, if_pos hi, List.getElem?_map, List.getElem?_eq_getElem hi] at hget
  rw [List.getElem?_eq_getElem hi]
  exact Option.some.inj hget

/-- A draw touches the model's record of draws alone (log 5). -/
theorem dropDraw_eq (s : State) :
    s.dropDraw = { s with txDraws := s.dropDraw.txDraws, freeDraws := s.dropDraw.freeDraws } := by
  cases hx : s.txDraws with
  | nil => rw [dropDraw_of_nil hx, hx]
  | cons x xs => rw [dropDraw_of_cons hx]

/-- The channel takes all of the bytes, or the first `k` of them and fails. -/
theorem transmit_eq_ok {x : List (Option Byte)} (h : transmit s x = .ok t) :
    (∃ d, t = s.dropDraw.sent d) ∨
      ∃ k taken, x.take (k % x.length) = taken.map some ∧ t = s.dropDraw.sendFailed taken := by
  unfold transmit at h
  split at h <;> simp only [bind_eq_ok, pure_ok, Except.ok.injEq, useAll_eq_ok] at h
  next =>
    obtain ⟨d, _, rfl⟩ := h
    exact .inl ⟨d, rfl⟩
  next k _ =>
    obtain ⟨taken, htaken, rfl⟩ := h
    exact .inr ⟨k, taken, htaken, rfl⟩

/-- A failing channel raises nothing by itself: its IoFailure is part of the state it answers. -/
theorem raisesWithin_transmit (s : State) (x : List (Option Byte)) : raisesWithin [] (transmit s x) := by
  unfold transmit
  split <;> exact raisesWithin_bind (raisesWithin_useAll _) fun _ => raisesWithin_ok _

/-- Everything a TX_SEND can do when it answers a next state. -/
inductive TxSendEffect (s t : State) : Prop where
  | raised (e : ResultCode) (he : e = .ioFailure → s.fatal = true) (ht : t = s.raised e)
  | sent (u : State) (d : List Byte) (ht : t = u.sent d)
  | failed (taken : List Byte) (hf : s.fatal = false) (hlt : taken.length < countOperand s)
      (hb : holdsBytes s.dmem (srcOperand s) taken) (ht : t = s.dropDraw.sendFailed taken)

theorem transmit_effect (hf : s.fatal = false) (hn : countOperand s ≠ 0)
    (h : transmit s (sourceBytes s) = .ok t) : TxSendEffect s t := by
  rcases transmit_eq_ok h with ⟨d, ht⟩ | ⟨k, taken, htaken, ht⟩
  · exact .sent _ d ht
  · rw [length_sourceBytes] at htaken
    have hk : k % countOperand s < countOperand s := Nat.mod_lt _ (Nat.pos_of_ne_zero hn)
    rw [sourceBytes, Memory.readBytes_take _ _ _ _ hk.le] at htaken
    have hlen : k % countOperand s = taken.length := by simpa using congrArg List.length htaken
    rw [hlen] at hk htaken
    exact .failed taken hf hk (holdsBytes_of_readBytes_eq htaken) ht

theorem txSend_effect (h : exec .txSend s = .next t) : TxSendEffect s t := by
  rcases issue_eq_next h with ⟨_, rfl⟩ | ⟨_, hbody | ⟨e, hbody, rfl⟩⟩
  · exact .raised .busy nofun rfl
  · simp only [bind_eq_ok, channelUsable, raiseIf_eq_ok] at hbody
    obtain ⟨_, hf, _, _, hx⟩ := hbody
    split at hx
    next => exact .sent s [] (Except.ok.inj hx).symm
    next hn => exact transmit_effect hf hn hx
  · simp only [bind_eq_error, channelUsable, raiseIf_eq_error, checkRange_eq_error, Stop.raise.injEq] at hbody
    rcases hbody with ⟨hf, _⟩ | ⟨_, _, ⟨_, rfl⟩ | ⟨_, _, hx⟩⟩
    · exact .raised e (fun _ => hf) rfl
    · exact .raised .addressRange nofun rfl
    · split at hx
      next => cases hx
      next => exact absurd (raisesWithin_transmit _ _ _ hx) List.not_mem_nil

/-! ## Errors are precise (60_exceptions.md R225) -/

theorem exec_error_of_ne_txSend {i : Instr} (hi : i ≠ .txSend) (h : exec i s = .next t) (herr : t.err ≠ .ok) :
    t = s.raised t.err := by
  rcases exec_effect h with ⟨e, _, rfl⟩ | ⟨a, r0, r1, _, rfl⟩ | ⟨r0, r1, addr, d, _, _, rfl⟩ |
    ⟨out, r1, f, ds, k, e, htx, _, _, _⟩ | ⟨_, _, _, _, rfl⟩
  case raised => rfl
  case sent => exact absurd htx hi
  all_goals exact absurd rfl herr

/-- Settles O8: of the effects of a command only a raised code and the failing TX_SEND leave a code other than OK. -/
theorem errorsArePrecise : Obligations.ErrorsArePrecise := by
  intro i s t h herr
  by_cases hi : i = .txSend
  · subst hi
    rcases txSend_effect h with ⟨e, _, rfl⟩ | ⟨u, d, rfl⟩ | ⟨taken, hf, hlt, hb, rfl⟩
    case raised => exact .inl rfl
    case sent => exact absurd rfl herr
    case failed =>
      refine .inr ⟨rfl, hf, taken, hlt, hb, ?_⟩
      rw [dropDraw_eq s]
      rfl
  · exact .inl (exec_error_of_ne_txSend hi h herr)

end Sys2Proof.Machine
end

section
/-! SUPPORT. The two reports (60_exceptions.md R220, R222): commands write STATUS.ERR, receives RX_ERR, each
with its own codes. -/

namespace Sys2Proof.Machine

variable {s t : State}

/-! ## Commands and receives report apart (60_exceptions.md R222) -/

theorem receiveEffect_keeps_command_report {e : Turn} (he : ReceiveEffect e s t) :
    t.err = s.err ∧ t.res0 = s.res0 ∧ t.res1 = s.res1 ∧ t.acc = s.acc ∧ t.txOut = s.txOut := by
  cases he <;> subst t <;> exact ⟨rfl, rfl, rfl, rfl, rfl⟩

/-- Settles O50: no effect of a command writes the receive's report, no effect of an event the command's. -/
theorem statusFieldsIndependent : Obligations.StatusFieldsIndependent :=
  ⟨fun _ _ _ => exec_keeps_receive_report, fun _ _ _ he ht =>
    receiveEffect_keeps_command_report (receive_effect he ht)⟩

/-! ## The codes of STATUS.ERR and RX_ERR (60_exceptions.md R220) -/

@[simp] theorem State.writeReg_err (s : State) (w : Word) (r : HostReg) : (s.writeReg w r).err = s.err := by
  cases r <;> rfl

@[simp] theorem State.writeReg_rxErr (s : State) (w : Word) (r : HostReg) : (s.writeReg w r).rxErr = s.rxErr := by
  cases r <;> rfl

theorem ok_mem_commandCodes : ResultCode.ok ∈ commandCodes := by decide

theorem ok_mem_receiveCodes : ResultCode.ok ∈ receiveCodes := by decide

theorem exec_err_mem {i : Instr} (h : exec i s = .next t) : t.err ∈ commandCodes := by
  rcases exec_effect h with ⟨e, he, rfl⟩ | ⟨a, r0, r1, _, rfl⟩ | ⟨r0, r1, addr, d, _, _, rfl⟩ |
    ⟨out, r1, f, ds, k, e, _, _, ⟨_, rfl⟩ | ⟨_, rfl⟩, rfl⟩ | ⟨_, _, _, _, rfl⟩
  case raised => exact he
  case sent.inr => exact (by decide : ResultCode.ioFailure ∈ commandCodes)
  all_goals exact ok_mem_commandCodes

theorem hostEffect_err_mem {act : HostAction} (he : HostEffect act s t) (hs : s.err ∈ commandCodes) :
    t.err ∈ commandCodes := by
  rcases he with ⟨pos, seen, rfl⟩ | ⟨off, b, _, _, rfl⟩ | ⟨off, w, r, _, _, _, rfl⟩ | ⟨w, i, _, _, ht⟩ |
    ⟨e, hmem, rfl⟩ | ⟨_, rfl⟩
  case looked | storedByte => exact hs
  case wroteReg => rwa [State.writeReg_err]
  case issued => exact exec_err_mem ht
  case illegal => exact hmem
  case wasReset => exact ok_mem_commandCodes

theorem hostEffect_rxErr {act : HostAction} (he : HostEffect act s t) : t.rxErr = s.rxErr ∨ t.rxErr = .ok := by
  rcases he with ⟨pos, seen, rfl⟩ | ⟨off, b, _, _, rfl⟩ | ⟨off, w, r, _, _, _, rfl⟩ | ⟨w, i, _, _, ht⟩ |
    ⟨e, _, rfl⟩ | ⟨_, rfl⟩
  case wroteReg => exact .inl (s.writeReg_rxErr w r)
  case issued => exact .inl (exec_keeps_receive_report ht).1
  case wasReset => exact .inr rfl
  all_goals exact .inl rfl

/-- What a byte ends an armed receive with stands among the receive's codes (43_transport.md R193). -/
theorem mem_receiveCodes_of_endsByteWith {e : ResultCode} (hs : s.rxState ≠ .idle) (he : endsByteWith s e) :
    e ∈ receiveCodes := by
  obtain ⟨hwait, hheader, hbody⟩ := he
  cases hst : s.rxState with
  | idle => exact absurd hst hs
  | waitStart =>
    rw [hwait hst]
    decide
  | header =>
    rw [(hheader hst).1]
    decide
  | body =>
    obtain ⟨rfl | rfl | rfl | rfl, -⟩ := hbody hst <;> decide

theorem SafeState.rxErr_mem_of_rxByte (h : SafeState s) (hs : s.rxErr ∈ receiveCodes) (ha : s.rxArmed = true)
    (ht : takeTurn .rxByte s = .next t) : t.rxErr ∈ receiveCodes := by
  cases hin : s.rxIn with
  | nil => simp [takeTurn_rxByte_of_nil hin] at ht
  | cons b rest =>
    obtain ⟨t', ht', heffect⟩ := h.exists_rxByteEffect ha hin
    obtain rfl : t' = t := by simpa [ht'] using ht
    rcases heffect with ⟨e, u, hends, rfl⟩ | ⟨st, L, timer, rfl⟩
    case ended => exact mem_receiveCodes_of_endsByteWith (h.armed.1 ha) hends
    case collected => exact hs

/-- A receive of a safe state ends with a receive's code, whichever event ends it. -/
theorem SafeState.rxErr_mem_of_rxEvent {e : Turn} (h : SafeState s) (hs : s.rxErr ∈ receiveCodes) (he : isRxEvent e)
    (ht : takeTurn e s = .next t) : t.rxErr ∈ receiveCodes := by
  cases ha : s.rxArmed with
  | false =>
    rw [takeTurn_of_not_armed ha he] at ht
    cases ht
  | true =>
    rcases he with rfl | rfl | rfl
    · exact h.rxErr_mem_of_rxByte hs ha ht
    · by_cases hst : s.rxState = .waitStart
      · rw [takeTurn_rxExpire_waitStart ha hst] at ht
        cases ht
        exact (by decide : ResultCode.timeout ∈ receiveCodes)
      · rw [takeTurn_rxExpire_later ha hst] at ht
        cases ht
        exact (by decide : ResultCode.incomplete ∈ receiveCodes)
    · rw [takeTurn_rxIoFail ha] at ht
      cases ht
      exact (by decide : ResultCode.ioFailure ∈ receiveCodes)

/-- Settles O46: each agent's turn writes the field of its own kind, or resets both to OK. -/
theorem codesStayInTheirRows : Obligations.CodesStayInTheirRows := by
  intro s t h herr hrx ht
  rcases step_effect ht with ⟨rest, act, _, _, he⟩ | ⟨rest, e, _, hr, he, heffect⟩ | ⟨rest, _, rfl⟩
  case host =>
    refine ⟨hostEffect_err_mem he herr, ?_⟩
    rcases hostEffect_rxErr he with hkept | hok
    · rwa [hkept]
    · rw [hok]
      exact ok_mem_receiveCodes
  case receive =>
    obtain ⟨herr', -⟩ := receiveEffect_keeps_command_report heffect
    have hmoved : SafeState { s with schedule := rest } := h.of_receiveFields_eq rfl h.memory h.channel
    exact ⟨herr' ▸ herr, hmoved.rxErr_mem_of_rxEvent hrx hr he⟩
  case platform => exact ⟨ok_mem_commandCodes, ok_mem_receiveCodes⟩

end Sys2Proof.Machine
end

section
/-! SUPPORT. The life of FATAL (60_exceptions.md R226). -/

namespace Sys2Proof.Machine

variable {s t : State}

/-! ## What can change FATAL -/

@[simp] theorem State.writeReg_fatal (s : State) (w : Word) (r : HostReg) : (s.writeReg w r).fatal = s.fatal := by
  cases r <;> rfl

theorem exec_fatal_cases {i : Instr} (h : exec i s = .next t) :
    t.fatal = s.fatal ∨ (i = .txSend ∧ t.fatal = true ∧ t.err = .ioFailure) := by
  rcases exec_effect h with ⟨e, _, rfl⟩ | ⟨a, r0, r1, _, rfl⟩ | ⟨r0, r1, addr, d, _, _, rfl⟩ |
    ⟨out, r1, f, ds, k, e, hi, hf, ⟨rfl, rfl⟩ | ⟨rfl, rfl⟩, rfl⟩ | ⟨_, _, _, _, rfl⟩
  case sent.inl => exact .inl hf.symm
  case sent.inr => exact .inr ⟨hi, rfl, rfl⟩
  all_goals exact .inl rfl

theorem hostEffect_fatal_cases {act : HostAction} (he : HostEffect act s t) :
    t.fatal = s.fatal ∨ (act = .reset ∧ t.fatal = false) ∨
      ∃ w, act = .access (.wr32 0 w) ∧ decode w = .ok .txSend ∧ t.fatal = true ∧ t.err = .ioFailure := by
  rcases he with ⟨pos, seen, rfl⟩ | ⟨off, b, _, _, rfl⟩ | ⟨off, w, r, _, _, _, rfl⟩ |
    ⟨w, i, hact, hd, ht⟩ | ⟨e, _, rfl⟩ | ⟨hact, rfl⟩
  case wroteReg => exact .inl (s.writeReg_fatal w r)
  case issued =>
    rcases exec_fatal_cases ht with hkept | ⟨rfl, hset⟩
    · exact .inl hkept
    · exact .inr (.inr ⟨w, hact, hd, hset⟩)
  case wasReset => exact .inr (.inl ⟨hact, rfl⟩)
  all_goals exact .inl rfl

theorem receiveEffect_fatal_cases {e : Turn} (he : ReceiveEffect e s t) :
    t.fatal = s.fatal ∨ (e = .rxIoFail ∧ t.fatal = true) := by
  rcases he with ⟨rest, buf, st, L, timer, rfl⟩ | ⟨rest, f, code, hf, rfl⟩ | ⟨rest, p, L, rx, _, _, rfl⟩
  case ended => exact hf
  all_goals exact .inl rfl

/-- Everything a step can do to FATAL: keep it, clear it by a reset, or set it by a failure of the channel. -/
theorem step_fatal_cases (h : step s = .next t) :
    t.fatal = s.fatal ∨ (resetsNext s ∧ t.fatal = false) ∨
      (t.fatal = true ∧
        (s.schedule.head? = some .rxIoFail ∨ (issuesNext .txSend s ∧ t.err = .ioFailure))) := by
  rcases step_effect h with ⟨rest, act, hs, hp, he⟩ | ⟨rest, e, hs, _, _, he⟩ | ⟨rest, hs, rfl⟩
  case host =>
    have hnext := nextHostAction_of_host hs hp
    rcases hostEffect_fatal_cases he with hkept | ⟨rfl, hclear⟩ | ⟨w, rfl, hd, hset, herr⟩
    · exact .inl hkept
    · exact .inr (.inl ⟨.inr hnext, hclear⟩)
    · exact .inr (.inr ⟨hset, .inr ⟨⟨w, hnext, hd⟩, herr⟩⟩)
  case receive =>
    rcases receiveEffect_fatal_cases he with hkept | ⟨rfl, hset⟩
    · exact .inl hkept
    · exact .inr (.inr ⟨hset, .inl (by simp [hs])⟩)
  case platform => exact .inr (.inl ⟨.inl (by simp [hs]), rfl⟩)

/-! ## What always sets or clears FATAL -/

/-- The platform's reset and the host's line do the same (70_reset_and_hazards.md R250). -/
theorem exists_step_eq_assertReset (h : resetsNext s) : ∃ u, step s = .next (State.assertReset u) := by
  rcases h with hplatform | hline
  · obtain ⟨rest, hs⟩ := List.head?_eq_some_iff.1 hplatform
    exact ⟨_, step_of_schedule hs⟩
  · unfold nextHostAction at hline
    split at hline
    next rest hs =>
      obtain ⟨-, hact, -⟩ := stepRunsTheDecodedCommand s rest
      exact ⟨_, hact _ hs hline⟩
    next => cases hline

theorem txSend_fatal_of_ioFailure (h : exec .txSend s = .next t) (herr : t.err = .ioFailure) : t.fatal = true := by
  rcases txSend_effect h with ⟨e, he, rfl⟩ | ⟨u, d, rfl⟩ | ⟨taken, _, _, _, rfl⟩
  case raised => exact he herr
  case sent => cases herr
  case failed => rfl

theorem rxIoFail_fatal (h : takeTurn .rxIoFail s = .next t) : t.fatal = true := by
  cases ha : s.rxArmed with
  | false =>
    rw [takeTurn_of_not_armed ha (.inr (.inr rfl))] at h
    cases h
  | true =>
    rw [takeTurn_rxIoFail ha] at h
    cases h
    rfl

/-- Settles O47: the three cases of a step for FATAL give what sets and what clears it; while set it is the first check
of the channel commands. -/
theorem fatalLifecycle : Obligations.FatalLifecycle := by
  refine ⟨fun s t h => ⟨fun hf hno => ?_, fun hf hset => ?_⟩, fun s t hreset h => ?_,
    fun _ _ => txSend_fatal_of_ioFailure, fun _ _ => rxIoFail_fatal,
    fun _ _ hi ha hf => raises_ioFailure_of_fatal ha hi hf⟩
  · rcases step_fatal_cases h with hkept | ⟨hreset, _⟩ | ⟨hset, _⟩
    · exact hkept.trans hf
    · exact absurd hreset hno
    · exact hset
  · rcases step_fatal_cases h with hkept | ⟨_, hclear⟩ | ⟨_, hsetters⟩
    · simp [hkept, hf] at hset
    · simp [hclear] at hset
    · exact hsetters
  · obtain ⟨u, hu⟩ := exists_step_eq_assertReset hreset
    rw [hu] at h
    cases h
    rfl

end Sys2Proof.Machine
end

section
/-! SUPPORT. Reset (70_reset_and_hazards.md R250; 10_state.md R37): the words the host reads after it. -/

namespace Sys2Proof.Machine

@[simp] theorem State.assertReset_statusWord (s : State) : s.assertReset.statusWord = 0x00000000#32 :=
  (by decide : State.reset.statusWord = 0x00000000#32)

@[simp] theorem State.assertReset_crcWord (s : State) : s.assertReset.crcWord = 0x0000FFFF#32 := rfl

@[simp] theorem State.assertReset_rxStatusWord (s : State) : s.assertReset.rxStatusWord = 0x00000000#32 :=
  (by decide : State.reset.rxStatusWord = 0x00000000#32)

@[simp] theorem State.assertReset_rxLenWord (s : State) : s.assertReset.rxLenWord = 0x00000000#32 := rfl

@[simp] theorem State.assertReset_rxCrcWord (s : State) : s.assertReset.rxCrcWord = 0x00000000#32 := rfl

/-- Settles O56: both resets answer `State.assertReset`, whose fields and words the laws of State and the ones above
give. -/
theorem resetEvent : Obligations.ResetEvent := by
  intro s
  refine ⟨s.assertReset, rfl, rfl, ?_⟩
  simp [State.reset]

end Sys2Proof.Machine
end

section
/-! SUPPORT. The model's fault (70_reset_and_hazards.md R251): a command whose use of its source comes to a byte that
nothing has written stops there. -/

namespace Sys2Proof.Machine

/-! ## The use of an unwritten byte -/

theorem useAll_of_unwritten {x : List (Option Byte)} {i : Nat} (h : x[i]? = some none) :
    useAll x = .error (.fault .unwrittenByte) :=
  (useAll_eq_error x _).2 ⟨List.mem_of_getElem? h, rfl⟩

theorem issue_fault {s : State} (h : s.rxArmed = false) {body : Except Stop State} {f : Fault}
    (hb : body = .error (.fault f)) : issue s body = .fault f := by
  rw [issue_free body h, hb, complete_fault]

theorem getElem?_sourceBytes {s : State} {i : Nat} (hi : i < countOperand s) :
    (sourceBytes s)[i]? = some (s.dmem.read (srcOperand s + i)) := by
  rw [sourceBytes, Memory.readBytes_getElem?, if_pos hi]

theorem useAt_sourceBytes {s : State} {i : Nat} (hi : i < countOperand s) :
    useAt (sourceBytes s) i = useByte (s.dmem.read (srcOperand s + i)) := by
  rw [useAt, getElem?_sourceBytes hi, Option.getD_some]

section
variable {s : State} {k : Nat} (hk : k < countOperand s) (hnone : s.dmem.read (srcOperand s + k) = none)
include hk hnone

theorem getElem?_sourceBytes_of_unwritten : (sourceBytes s)[k]? = some none := by
  rw [getElem?_sourceBytes hk, hnone]

theorem useAll_sourceBytes_of_unwritten : useAll (sourceBytes s) = .error (.fault .unwrittenByte) :=
  useAll_of_unwritten (getElem?_sourceBytes_of_unwritten hk hnone)

/-- The use of a part of the source, `n` bytes from place `a` on, that has the unwritten byte in it. -/
theorem useAll_take_drop_sourceBytes_of_unwritten {a n : Nat} (hlo : a ≤ k) (hhi : k < a + n) :
    useAll (((sourceBytes s).drop a).take n) = .error (.fault .unwrittenByte) := by
  refine useAll_of_unwritten (i := k - a) ?_
  rw [List.getElem?_take_of_lt (by omega), List.getElem?_drop, Nat.add_sub_cancel' hlo]
  exact getElem?_sourceBytes_of_unwritten hk hnone

theorem sourceForPrefixing_of_unwritten (hr : srcInRange s)
    (hd : dstOperand s + (vlen (countOperand s) + countOperand s) ≤ 4096) :
    sourceForPrefixing s = .error (.fault .unwrittenByte) := by
  rw [sourceForPrefixing, checkRange_of_le hr, ok_bind, length_encodeUvarint_count, checkRange_of_le hd, ok_bind]
  exact useAll_sourceBytes_of_unwritten hk hnone

/-! ## The varint decoders (41_varint.md R133 to R135) -/

/-- Behind continued bytes, fewer than five, the varint decoder uses the next byte. -/
theorem decodeUvarint_of_unwritten {d : List Byte} (hlen : d.length = k) (h5 : k < 5)
    (hb : holdsBytes s.dmem (srcOperand s) d) (hd : d.all (fun b => b.getLsbD 7) = true) :
    decodeUvarint (sourceBytes s) = .error (.fault .unwrittenByte) := by
  subst hlen
  have hnext : (sourceBytes s).drop d.length = none :: (sourceBytes s).drop (d.length + 1) := by
    obtain ⟨hlt, hget⟩ := List.getElem?_eq_some_iff.1 (getElem?_sourceBytes_of_unwritten hk hnone)
    rw [List.drop_eq_getElem_cons hlt, hget]
  rw [sourceBytes_eq_append hb hk.le, hnext, decodeUvarint, decodeUvarintFrom_of_all_continued hd (by omega),
    decodeUvarintFrom, if_neg (by rw [Nat.zero_add]; exact h5.ne), useByte_none, error_bind]

/-- Behind the length the string decoder uses every byte of the data. -/
theorem decodeString_of_unwritten {h : List Byte} (hu : uvarintAtSource s h)
    (hv : uvarintValue h ≤ countOperand s - h.length) (hlo : h.length ≤ k) (hhi : k < h.length + uvarintValue h) :
    decodeString (sourceBytes s) = .error (.fault .unwrittenByte) := by
  rw [decodeString_of_decodeBytes (decodeBytes_of_sufficient hu hv), Nat.add_sub_cancel,
    useAll_take_drop_sourceBytes_of_unwritten hk hnone hlo hhi, error_bind]

end

/-! ## The frame parser (42_frame.md R161) -/

section
variable {α : Type} {f : List Byte}

/-- A check of the parser that agrees with number `m` of `parseChecks`, one of the first `j`, which all hold, passes. -/
theorem raiseIf_bind_of_holds {j m : Nat} {holds c : Bool} {e : ResultCode} {g : Unit → Except Stop α}
    {r : Except Stop α} (hj : ∀ c ∈ (parseChecks f).take j, c.1 = true) (hm : m < j)
    (hget : (parseChecks f)[m]? = some (holds, e)) (hc : c = !holds) (hg : holds = true → g () = r) :
    (raiseIf c e >>= g) = r := by
  have hholds : holds = true := hj _ (List.mem_of_getElem? ((List.getElem?_take_of_lt hm).trans hget))
  rw [hc, hholds]
  exact hg hholds

variable {s : State} {k : Nat} (hnone : s.dmem.read (srcOperand s + k) = none) (hf : completesSource s f)
include hnone hf

/-- The use of a byte faults, or the byte is the completion's and not the unwritten one. -/
theorem useAt_bind_eq_fault {i : Nat} (hi : i < f.length) {g : Byte → Except Stop α}
    (hg : k ≠ i → g (f.getD i 0#8) = .error (.fault .unwrittenByte)) :
    (useAt (sourceBytes s) i >>= g) = .error (.fault .unwrittenByte) := by
  obtain ⟨hlen, hbyte⟩ := hf
  rw [useAt_sourceBytes (hlen ▸ hi)]
  rcases hbyte i hi with hread | hread
  · rw [hread]
    rfl
  · rw [List.getElem?_eq_getElem hi] at hread
    have hki : k ≠ i := by
      rintro rfl
      cases hread.symm.trans hnone
    rw [hread, useByte_some, ok_bind, ← hg hki, List.getD_eq_getElem _ _ hi]

variable (hk : k < countOperand s)
include hk

/-- The checks before number `j` pass, unless one of them meets an unwritten byte itself; check `j` uses byte `k`. -/
theorem parse_of_unwritten {j : Nat} (hj : ∀ c ∈ (parseChecks f).take j, c.1 = true) (hu : usedByCheck f j k) :
    parse (sourceBytes s) = .error (.fault .unwrittenByte) := by
  unfold usedByCheck at hu
  have hlen : (sourceBytes s).length = f.length := (length_sourceBytes s).trans hf.1.symm
  simp only [parse, hlen]
  refine raiseIf_bind_of_holds hj (m := 0) (by omega) rfl (decide_lt_eq_not_decide_le _ _) fun hlength => ?_
  rw [decide_eq_true_eq] at hlength
  refine useAt_bind_eq_fault hnone hf (by omega) fun hstart => ?_
  refine raiseIf_bind_of_holds hj (m := 1) (by omega) rfl (bne_eq_not_decide_toNat _ _) fun _ => ?_
  refine useAt_bind_eq_fault hnone hf (by omega) fun hlast => ?_
  refine raiseIf_bind_of_holds hj (m := 2) (by omega) rfl (bne_eq_not_decide_toNat _ _) fun _ => ?_
  refine useAt_bind_eq_fault hnone hf (by omega) fun hversion => ?_
  refine raiseIf_bind_of_holds hj (m := 3) (by omega) rfl (bne_eq_not_decide_toNat _ _) fun _ => ?_
  refine useAt_bind_eq_fault hnone hf (by omega) fun hlenLo => useAt_bind_eq_fault hnone hf (by omega) fun hlenHi => ?_
  rw [fromLe16_getD_toNat, Nat.add_right_comm 4]
  refine raiseIf_bind_of_holds hj (m := 4) (by omega) rfl (badLength_eq_not_decide _) fun _ => ?_
  refine raiseIf_bind_of_holds hj (m := 5) (by omega) rfl (decide_lt_eq_not_decide_le _ _) fun hfits => ?_
  rw [decide_eq_true_eq] at hfits
  refine useAt_bind_eq_fault hnone hf (by omega) fun hcrcLo => useAt_bind_eq_fault hnone hf (by omega) fun hcrcHi => ?_
  rw [useAll_take_drop_sourceBytes_of_unwritten hk hnone (by omega) (by omega), error_bind]

end

/-! ## The commands -/

theorem decodesBy.exec_of_fault {i : Instr} {dec : List (Option Byte) → Except Stop (Nat × Nat)} {s : State}
    {f : Fault} (hi : decodesBy i dec) (h : s.rxArmed = false) (hr : srcInRange s)
    (hd : dec (sourceBytes s) = .error (.fault f)) : exec i s = .fault f := by
  rw [hi s]
  refine issue_fault h ?_
  rw [checkRange_of_le hr, ok_bind, hd, error_bind]

section
variable {s : State} (h : s.rxArmed = false) (hr : srcInRange s)
include h hr

theorem exec_txSend_of_transmit_fault {f : Fault} (hf : s.fatal = false) (hn : countOperand s ≠ 0)
    (ht : transmit s (sourceBytes s) = .error (.fault f)) : exec .txSend s = .fault f := by
  refine issue_fault h ?_
  rw [channelUsable_of_not_fatal hf, ok_bind, checkRange_of_le hr, ok_bind, if_neg hn]
  exact ht

variable {k : Nat} (hk : k < countOperand s) (hnone : s.dmem.read (srcOperand s + k) = none)
include hk hnone

theorem exec_crcBlock_of_unwritten : exec .crcBlock s = .fault .unwrittenByte := by
  have huse := useAll_sourceBytes_of_unwritten hk hnone
  refine issue_fault h ?_
  rw [checkRange_of_le hr, ok_bind, ← sourceBytes, huse, error_bind]

theorem exec_frameBuild_of_unwritten (hd : dstOperand s + (7 + countOperand s) ≤ 4096)
    (hhi : countOperand s ≤ 1024) : exec .frameBuild s = .fault .unwrittenByte := by
  have huse := useAll_sourceBytes_of_unwritten hk hnone
  refine issue_fault h ?_
  rw [checkRange_of_le hr, ok_bind, checkRange_of_le hd, ok_bind, (badLength_eq_false_iff _).2 ⟨by omega, hhi⟩,
    raiseIf_false, ok_bind, ← sourceBytes, huse, error_bind]

theorem exec_bytesEnc_stringEnc_of_unwritten (hd : dstOperand s + (vlen (countOperand s) + countOperand s) ≤ 4096) :
    exec .bytesEnc s = .fault .unwrittenByte ∧ exec .stringEnc s = .fault .unwrittenByte := by
  have hsource := sourceForPrefixing_of_unwritten hk hnone hr hd
  constructor
  all_goals
    refine issue_fault h ?_
    rw [hsource, error_bind]

/-- A channel that takes all bytes uses them all. -/
theorem exec_txSend_of_sent_unwritten (hf : s.fatal = false) (hx : s.txDraw = .sent) :
    exec .txSend s = .fault .unwrittenByte := by
  refine exec_txSend_of_transmit_fault h hr hf (by omega) ?_
  simp only [transmit, hx, useAll_sourceBytes_of_unwritten hk hnone, error_bind]

/-- A channel that fails after `n` bytes uses those `n`. -/
theorem exec_txSend_of_failed_unwritten {n : Nat} (hf : s.fatal = false) (hx : s.txDraw = .failed n) (hkn : k < n)
    (hn : n < countOperand s) : exec .txSend s = .fault .unwrittenByte := by
  have huse := useAll_take_drop_sourceBytes_of_unwritten hk hnone (a := 0) (n := n) (by omega) (by omega)
  refine exec_txSend_of_transmit_fault h hr hf (by omega) ?_
  rw [List.drop_zero] at huse
  simp only [transmit, hx, length_sourceBytes, Nat.mod_eq_of_lt hn, huse, error_bind]

/-- The three decoders begin with the varint. -/
theorem exec_decoders_of_unwritten {d : List Byte} (hlen : d.length = k) (h5 : k < 5)
    (hb : holdsBytes s.dmem (srcOperand s) d) (hd : d.all (fun b => b.getLsbD 7) = true) :
    exec .varintDec s = .fault .unwrittenByte ∧ exec .bytesDec s = .fault .unwrittenByte ∧
      exec .stringDec s = .fault .unwrittenByte := by
  have hvarint := decodeUvarint_of_unwritten hk hnone hlen h5 hb hd
  have hbytes : decodeBytes (sourceBytes s) = .error (.fault .unwrittenByte) := by
    rw [decodeBytes, hvarint, error_bind]
  have hstring : decodeString (sourceBytes s) = .error (.fault .unwrittenByte) := by
    rw [decodeString, hbytes, error_bind]
  exact ⟨varintDec_decodesBy.exec_of_fault h hr hvarint, bytesDec_decodesBy.exec_of_fault h hr hbytes,
    stringDec_decodesBy.exec_of_fault h hr hstring⟩

end

/-- Settles O10: each command comes to the unwritten byte before it can end or raise. -/
theorem unwrittenSourceFaults : Obligations.UnwrittenSourceFaults := by
  intro s k h hr hk hnone
  refine ⟨exec_crcBlock_of_unwritten h hr hk hnone, exec_bytesEnc_stringEnc_of_unwritten h hr hk hnone,
    exec_frameBuild_of_unwritten h hr hk hnone,
    fun _ hf hx => exec_txSend_of_sent_unwritten h hr hk hnone hf (txDraw_of_cons hx),
    fun _ _ hf hx => exec_txSend_of_failed_unwritten h hr hk hnone hf (txDraw_of_cons hx),
    fun _ => exec_decoders_of_unwritten h hr hk hnone,
    fun _ hu hv hlo hhi => stringDec_decodesBy.exec_of_fault h hr (decodeString_of_unwritten hk hnone hu hv hlo hhi),
    fun f j hf hj hu => frameParse_decodesBy.exec_of_fault h hr ?_⟩
  rw [parseReport, parse_of_unwritten hnone hf hk hj hu, error_bind]

end Sys2Proof.Machine
end
